-- ==== Sys2Proof/Word.lean ====
section
/-! DEFINITION. The value domains of spec/00_scope.md R10 that are bit patterns: unsigned words of the widths the spec names,
and the signed 16-bit sample, held as its 16-bit pattern. -/

namespace Sys2Proof

/-- An 8-bit colour channel, opcode or cause code (R10 `u8`). -/
abbrev U8 := BitVec 8

/-- A 9-bit palette index, six hue bits and three emphasis bits (R14). -/
abbrev U9 := BitVec 9

/-- A 16-bit cell of IN or OUT (R10 `u16`). -/
abbrev U16 := BitVec 16

/-- The 16-bit two's-complement pattern of a signed sample (R10 `s16`). -/
abbrev S16 := BitVec 16

/-- A 24-bit colour or rate (R10 `u24`). -/
abbrev U24 := BitVec 24

/-- The 25-bit phase accumulator's word (R10 `u25`). -/
abbrev U25 := BitVec 25

/-- A command word, response word or information word (R10 `u32`). -/
abbrev U32 := BitVec 32

end Sys2Proof
end

