-- ==== Sys2Proof/Syntax.lean ====
section
/-! DEFINITION. The thirteen commands of spec/30_encoding.md R50, one constructor per row of spec/opcode_table.json, each with
its operand as the operand form of R49 gives it. -/

namespace Sys2Proof

/-- A command with its operand value (R49, R50). Every value of a constructor's field is an operand the form can encode, so
every term of this type is well formed. -/
inductive Instr where
  /-- `BUILD` (R59), form Z. -/
  | build
  /-- `CONVERT` (R64), form Z. -/
  | convert
  /-- `LUT_READ idx` (R60), form I9. -/
  | lutRead (idx : U9)
  /-- `RS_RESET` (R71), form Z. -/
  | rsReset
  /-- `SET_SRC_RATE rate` (R72), form U24; rate 0 encodes, and faults when it runs. -/
  | setSrcRate (rate : U24)
  /-- `SET_DST_RATE rate` (R73), form U24; rate 0 encodes, and faults when it runs. -/
  | setDstRate (rate : U24)
  /-- `GET_SRC_RATE` (R74), form Z. -/
  | getSrcRate
  /-- `GET_DST_RATE` (R75), form Z. -/
  | getDstRate
  /-- `FEED s` (R76), form S16: the sample's two's-complement pattern. -/
  | feed (smp : S16)
  /-- `PENDING` (R77), form Z. -/
  | pending
  /-- `POP` (R78), form Z. -/
  | pop
  /-- `READ_STATUS` (R81), form Z. -/
  | readStatus
  /-- `READ_FAULT_INFO` (R82), form Z. -/
  | readFaultInfo
  deriving DecidableEq, Repr

end Sys2Proof
end

