-- ==== Sys2Proof/Decode.lean ====
section
/-! DEFINITION. Decoding a 32-bit command word as spec/30_encoding.md R48 to R52 say, total on every word and rejecting by name,
and the encoder written from the same table. -/

namespace Sys2Proof

/-- The four operand forms of R49. -/
inductive Form where
  | z | i9 | u24 | s16
  deriving DecidableEq, Repr

/-- The must-be-0 operand bits of a form (R51 `reservedbits`). -/
def reservedBits : Form → U32
  | .z   => 0x00FFFFFF#32
  | .i9  => 0x00FFFE00#32
  | .u24 => 0x00000000#32
  | .s16 => 0x00FF0000#32

/-- Why a word is no command (R51): the two decode causes of R84. -/
inductive DecodeError where
  /-- OP is not in the table of R50. -/
  | illegalOpcode
  /-- A must-be-0 operand bit is 1. -/
  | reservedBits
  deriving DecidableEq, Repr

/-- A row of the opcode map (R50): opcode, operand form, and the command a word of the row stands for. -/
structure Row where
  op   : U8
  form : Form
  read : U32 → Instr

/-- The I9 operand, OPD[8:0] (R49). -/
def operandI9 (w : U32) : U9 := BitVec.extractLsb' 0 9 w

/-- The U24 operand, OPD[23:0] (R49). -/
def operandU24 (w : U32) : U24 := BitVec.extractLsb' 0 24 w

/-- The S16 operand, OPD[15:0], a two's-complement pattern (R49). -/
def operandS16 (w : U32) : S16 := BitVec.extractLsb' 0 16 w

/-- The opcode map of R50. -/
def rows : List Row :=
  [⟨0x01#8, .z,   fun _ => .build⟩,
   ⟨0x02#8, .z,   fun _ => .convert⟩,
   ⟨0x03#8, .i9,  fun w => .lutRead (operandI9 w)⟩,
   ⟨0x10#8, .z,   fun _ => .rsReset⟩,
   ⟨0x11#8, .u24, fun w => .setSrcRate (operandU24 w)⟩,
   ⟨0x12#8, .u24, fun w => .setDstRate (operandU24 w)⟩,
   ⟨0x13#8, .z,   fun _ => .getSrcRate⟩,
   ⟨0x14#8, .z,   fun _ => .getDstRate⟩,
   ⟨0x15#8, .s16, fun w => .feed (operandS16 w)⟩,
   ⟨0x16#8, .z,   fun _ => .pending⟩,
   ⟨0x17#8, .z,   fun _ => .pop⟩,
   ⟨0x30#8, .z,   fun _ => .readStatus⟩,
   ⟨0x31#8, .z,   fun _ => .readFaultInfo⟩]

/-- The OP field, bits [31:24] (R48). -/
def opField (w : U32) : U8 := BitVec.extractLsb' 24 8 w

/-- The row of the opcode map that a word's OP selects. -/
def rowOf (w : U32) : Option Row := rows.find? (fun r => r.op == opField w)

/-- Decode a word (R51): the opcode first, then the reserved bits. -/
def decode (w : U32) : Except DecodeError Instr :=
  match rowOf w with
  | none   => .error .illegalOpcode
  | some r => if w &&& reservedBits r.form = 0#32 then .ok (r.read w) else .error .reservedBits

/-- The word of a command: OP in bits [31:24], the operand in the low bits, every reserved bit 0 (R48, R49, R54). -/
def encode : Instr → U32
  | .build           => 0x01000000#32
  | .convert         => 0x02000000#32
  | .lutRead idx     => 0x03000000#32 ||| idx.setWidth 32
  | .rsReset         => 0x10000000#32
  | .setSrcRate rate => 0x11000000#32 ||| rate.setWidth 32
  | .setDstRate rate => 0x12000000#32 ||| rate.setWidth 32
  | .getSrcRate      => 0x13000000#32
  | .getDstRate      => 0x14000000#32
  | .feed smp        => 0x15000000#32 ||| smp.setWidth 32
  | .pending         => 0x16000000#32
  | .pop             => 0x17000000#32
  | .readStatus      => 0x30000000#32
  | .readFaultInfo   => 0x31000000#32

/-- The full-word match of a row: OP << 24 (R50). -/
def rowMatch (r : Row) : U32 := r.op.setWidth 32 <<< 24

/-- The full-word mask of a row: 0xFF000000 with the form's must-be-0 bits (R50). -/
def rowMask (r : Row) : U32 := 0xFF000000#32 ||| reservedBits r.form

/-- What the decoder reads from the word `w`, its bits numbered as spec/opcode_table.json numbers them. A command is one
32-bit word on the command port (R47, R48), so `w` is that word; a number that does not fit it is no command. -/
def decodeTableWord (_nbits w : Nat) : Option Instr :=
  if w < 2 ^ 32 then (decode (BitVec.ofNat 32 w)).toOption else none

end Sys2Proof
end

