-- ==== Sys2Proof/Config.lean ====
section
/-! DEFINITION. The implementation parameters of spec/00_scope.md R7 as plain data, the constants with no body that stand for
the values the spec leaves OPEN, and the free values that stand for what the spec calls unspecified. -/

namespace Sys2Proof

/-- One value of the interpolation kernel `P_KERNEL(HIST, num, R, T)` of R70: at these four arguments it is `value`. -/
structure KernelPoint where
  hist  : List S16
  num   : Nat
  r     : Nat
  t     : Nat
  value : S16
  deriving DecidableEq, Repr, Inhabited

/-- The parameters of R7, before their constraints are checked (`Params.wellFormed`, in WellFormed.lean).
The kernel is held as finitely many of its values: everywhere else it is `Config.kernel` (log entry 2). -/
structure Params where
  /-- `P_WIDTH`. -/
  width    : Nat
  /-- `P_HEIGHT`. -/
  height   : Nat
  /-- `P_STRIDE`, counted in pixels (D30). -/
  stride   : Nat
  /-- `P_OUT_ROWS`. -/
  outRows  : Nat
  /-- `P_BASE[0..63]`. -/
  base     : List U24
  /-- `P_FDEN`. -/
  fden     : Nat
  /-- `P_FNUM_R[0..7]`. -/
  fnumR    : List Nat
  /-- `P_FNUM_G[0..7]`. -/
  fnumG    : List Nat
  /-- `P_FNUM_B[0..7]`. -/
  fnumB    : List Nat
  /-- `P_SRC_RATE0`. -/
  srcRate0 : U24
  /-- `P_DST_RATE0`. -/
  dstRate0 : U24
  /-- `P_HIST_LEN`. -/
  histLen  : Nat
  /-- `P_QCAP`. -/
  qcap     : Nat
  /-- The values of `P_KERNEL` that are given as data. -/
  kernelPoints : List KernelPoint
  deriving DecidableEq, Repr

/-! ### The OPEN parameters (D8, D9, D16, D18, D19, D22, D30; log entries 1 and 2)

None has a body, so no proof can see its value.
They are written as excesses over the bounds of R7, so that the constraints of R7 hold whatever they are. -/

/-- `P_WIDTH - 1`. -/
opaque Config.widthExcess : Nat
/-- `P_HEIGHT - 1`. -/
opaque Config.heightExcess : Nat
/-- `P_STRIDE - P_WIDTH`: the padding columns of a row. -/
opaque Config.paddingColumns : Nat
/-- `P_OUT_ROWS - P_HEIGHT`. -/
opaque Config.extraRows : Nat
/-- `P_BASE[n]`. -/
opaque Config.baseColor (n : Nat) : U24
/-- `P_FDEN - 1`. -/
opaque Config.fdenExcess : Nat
/-- `P_FNUM_R[e + 1]`. -/
opaque Config.factorR (e : Nat) : Nat
/-- `P_FNUM_G[e + 1]`. -/
opaque Config.factorG (e : Nat) : Nat
/-- `P_FNUM_B[e + 1]`. -/
opaque Config.factorB (e : Nat) : Nat
/-- `P_SRC_RATE0 - 1`. -/
opaque Config.srcRateExcess : Fin 16777215
/-- `P_DST_RATE0 - 1`. -/
opaque Config.dstRateExcess : Fin 16777215
/-- `P_HIST_LEN - 1`. -/
opaque Config.histLenExcess : Nat
/-- `P_QCAP - 1`. -/
opaque Config.qcapExcess : Fin 65535
/-- `P_KERNEL(HIST, num, R, T)`: total, and a function of these four arguments alone (R70). -/
opaque Config.kernel (hist : List S16) (num r t : Nat) : S16

/-! ### The free values (R17 "a draw", R66, U3 to U8; log entries 5, 6, 8 and 9)

`draw` is the number of the draw, from the counter in State; nothing constrains any of these values. -/

/-- What CT[i] holds after the power-on event of draw `draw`. -/
opaque Config.freeCt (draw i : Nat) : U24
/-- What ACC holds after the power-on event of draw `draw`. -/
opaque Config.freeAcc (draw : Nat) : U25
/-- What HIST[k] holds after the power-on event of draw `draw`. -/
opaque Config.freeHist (draw k : Nat) : S16
/-- What OUT[a] holds after the power-on event, or the INDEX_RANGE fault (R66), of draw `draw`. -/
opaque Config.freeOut (draw a : Nat) : U16
/-- What IN[a] holds before the host writes it. -/
opaque Config.freeIn (a : Nat) : U16
/-- The 32-bit word recorded for a number `n` that does not fit 32 bits. -/
opaque Config.freeWord (n : Nat) : U32

end Sys2Proof
end

