-- ==== Sys2Proof/WellFormed.lean ====
section
/-! DEFINITION. Which configurations have a meaning: the constraints of spec/00_scope.md R7, the type of the configurations that
meet them (the only ones a machine can hold), and the block's own configuration. A command needs no check of its own: the
fields of `Instr` hold exactly the operands that R49 encodes. -/

namespace Sys2Proof

/-- The constraints of R7 on the frame: sizes at least 1, `P_STRIDE >= P_WIDTH`, `P_OUT_ROWS >= P_HEIGHT`. -/
def Params.frameOk (p : Params) : Bool :=
  decide (1 ≤ p.width) && decide (1 ≤ p.height) && decide (p.width ≤ p.stride) && decide (p.height ≤ p.outRows)

/-- One factor table: eight numerators, entry 0 equal to `P_FDEN` (R7, D10). -/
def Params.tableOk (p : Params) (fnum : List Nat) : Bool :=
  decide (fnum.length = 8) && decide (fnum.getD 0 0 = p.fden)

/-- The constraints of R7 on the palette: 64 base colours, a positive denominator, three factor tables. -/
def Params.paletteOk (p : Params) : Bool :=
  decide (p.base.length = 64) && decide (1 ≤ p.fden) && p.tableOk p.fnumR && p.tableOk p.fnumG && p.tableOk p.fnumB

/-- The constraints of R7 on the resampler: positive power-on rates, a positive history length, a capacity of 1 to 65535. -/
def Params.resamplerOk (p : Params) : Bool :=
  decide (p.srcRate0 ≠ 0) && decide (p.dstRate0 ≠ 0) && decide (1 ≤ p.histLen) && decide (1 ≤ p.qcap)
    && decide (p.qcap ≤ 65535)

/-- A configuration that breaks a constraint "is ill-formed and has no meaning" (R7). -/
def Params.wellFormed (p : Params) : Bool :=
  p.frameOk && p.paletteOk && p.resamplerOk

/-- A configuration that meets every constraint of R7. State holds one of these, so no machine has an ill-formed one. -/
structure Cfg extends Params where
  ok : toParams.wellFormed = true
  deriving DecidableEq, Repr

/-- The model takes a well-formed configuration and refuses any other (R7 "the model refuses it", U14). -/
def Params.accept (p : Params) : Option Cfg :=
  if h : p.wellFormed = true then some ⟨p, h⟩ else none

/-- The values of the OPEN parameters, from the constants with no body of Config.lean. -/
def Config.openParams : Params where
  width    := Config.widthExcess + 1
  height   := Config.heightExcess + 1
  stride   := Config.widthExcess + 1 + Config.paddingColumns
  outRows  := Config.heightExcess + 1 + Config.extraRows
  base     := (List.range 64).map Config.baseColor
  fden     := Config.fdenExcess + 1
  fnumR    := (Config.fdenExcess + 1) :: (List.range 7).map Config.factorR
  fnumG    := (Config.fdenExcess + 1) :: (List.range 7).map Config.factorG
  fnumB    := (Config.fdenExcess + 1) :: (List.range 7).map Config.factorB
  srcRate0 := BitVec.ofNat 24 (Config.srcRateExcess.val + 1)
  dstRate0 := BitVec.ofNat 24 (Config.dstRateExcess.val + 1)
  histLen  := Config.histLenExcess + 1
  qcap     := Config.qcapExcess.val + 1
  kernelPoints := []

/-- A positive number below 2^24 is a legal rate. -/
theorem rate_ne_zero (n : Fin 16777215) : BitVec.ofNat 24 (n.val + 1) ≠ 0 := by
  intro h
  have := congrArg BitVec.toNat h
  simp only [BitVec.toNat_ofNat, BitVec.ofNat_eq_ofNat] at this
  omega

/-- The OPEN parameters meet every constraint of R7, whatever their values. -/
theorem Config.openParams_wellFormed : Config.openParams.wellFormed = true := by
  have hq := Config.qcapExcess.isLt
  have hs : BitVec.ofNat 24 (Config.srcRateExcess.val + 1) ≠ 0#24 := rate_ne_zero _
  have hd : BitVec.ofNat 24 (Config.dstRateExcess.val + 1) ≠ 0#24 := rate_ne_zero _
  simp [Params.wellFormed, Params.frameOk, Params.paletteOk, Params.tableOk, Params.resamplerOk, Config.openParams, hs, hd]

/-- The block's configuration at State.reset (log entry 1). -/
def Config.params : Cfg := ⟨Config.openParams, Config.openParams_wellFormed⟩

end Sys2Proof
end

