-- ==== Sys2Proof/Machine/State.lean ====
section
/-! DEFINITION. The machine's state: every element of spec/10_state.md R17, the Console Frame memory the host owns (R28), the two
ports of spec/30_encoding.md R47, the configuration, and the model's own counters for unspecified values; and the state after
the power-on event (spec/70_reset_and_hazards.md R96). -/

namespace Sys2Proof.Machine

/-- A storage space: (address, unit) pairs, addresses strictly rising. The unit is the space's own (R33): a 16-bit cell of IN
or OUT, a 24-bit entry of CT. An address that is not listed has no value here: nothing has written it (log entry 7). -/
abbrev Memory (w : Nat) := List (Nat × BitVec w)

/-- The canonical form: addresses strictly rising, so that equal memories are equal lists. -/
abbrev Memory.wf {w : Nat} (m : Memory w) : Prop := m.Pairwise (fun x y => x.1 < y.1)

/-- Every listed address is below `n`, the size of the space (R33). -/
abbrev Memory.within {w : Nat} (m : Memory w) (n : Nat) : Prop := ∀ c ∈ m, c.1 < n

/-- A stereo output sample, each channel an s16 pattern (R14 "pair"). -/
structure Pair where
  left  : S16
  right : S16
  deriving DecidableEq, Repr

/-- The response to one command, `(ERR, DATA)` (R47). -/
structure Response where
  err  : Bool
  data : U32
  deriving DecidableEq, Repr

/-- The fault causes of spec/60_exceptions.md R84; `cause` of `State` is one of them, since "codes 0x0A..0xFF are never written". -/
inductive Cause where
  /-- 0x00: no fault has occurred. -/
  | none
  /-- 0x01: OP not in the opcode map. -/
  | illegalOpcode
  /-- 0x02: a must-be-0 operand bit is 1. -/
  | reservedBits
  /-- 0x03: CONVERT or LUT_READ while PAL_BUILT is 0. -/
  | paletteNotBuilt
  /-- 0x04: BUILD while PAL_BUILT is 1. -/
  | paletteRebuild
  /-- 0x05: CONVERT meets an IN cell with bits [15:9] not all 0. -/
  | indexRange
  /-- 0x06: FEED while RS_READY is 0. -/
  | rsNotReady
  /-- 0x07: a rate operand of 0. -/
  | rateZero
  /-- 0x08: FEED's pairs do not fit Q. -/
  | queueOverflow
  /-- 0x09: POP on an empty Q. -/
  | queueEmpty
  deriving DecidableEq, Repr

/-- The two memories the host reaches (R33). -/
inductive Space where
  | inFrame | outFrame
  deriving DecidableEq, Repr

/-- What the host can do between two commands (R40, R96, R101, R105). It has no move that writes OUT (R29, D36, U14). -/
inductive HostEvent where
  /-- Present a command word on the command port (R47). -/
  | command (w : U32)
  /-- Write the cell `v` at IN address `a` (R28, R43). -/
  | writeIn (a : Nat) (v : U16)
  /-- Read the cell at IN address `a` (R33). -/
  | readIn (a : Nat)
  /-- Read the cell at OUT address `a` (R29). -/
  | readOut (a : Nat)
  /-- The power-on event (R96). -/
  | powerOn
  deriving DecidableEq, Repr

/-- The state: plain data. The doc comment of a field names the rule that gives the machine that element. -/
structure State where
  /-- The configuration (R7), fixed for the block's lifetime (R32; log entry 1). -/
  cfg       : Cfg
  /-- `CT`, the Color Table (R18). -/
  ct        : Memory 24
  /-- `STATUS.PAL_BUILT` (R20). -/
  palBuilt  : Bool
  /-- `STATUS.RS_READY` (R21). -/
  rsReady   : Bool
  /-- `STATUS.FAULTED` (R22). -/
  faulted   : Bool
  /-- `STATUS.CAUSE` (R22). -/
  cause     : Cause
  /-- `FAULT_INFO` (R23). -/
  faultInfo : U32
  /-- `SRC_RATE` (R24). -/
  srcRate   : U24
  /-- `DST_RATE` (R24). -/
  dstRate   : U24
  /-- `ACC`, the phase accumulator (R25). -/
  acc       : U25
  /-- `HIST`, entry 0 the newest sample (R26). -/
  hist      : List S16
  /-- `Q`, the output queue, its head first (R27). -/
  q         : List Pair
  /-- `OUT`, the Presentation Frame memory (R29). -/
  out       : Memory 16
  /-- `IN`, the Console Frame memory: host state that the block reads (R28). -/
  inMem     : Memory 16
  /-- What the host is still to do, the next first: the command port's input (R47, R105; log entry 3). -/
  pending   : List HostEvent
  /-- Every response given, the oldest first: the response port's output (R47, R105; log entry 4). -/
  responses : List Response
  /-- Every cell the host has read, the oldest first (R29, R33; log entry 4). -/
  hostReads : List U16
  /-- The model's own: the number of the next draw of unspecified values (log entry 5). -/
  draws     : Nat
  /-- The model's own: the number of the draw that the last power-on event took (log entry 5). -/
  epoch     : Nat
  deriving DecidableEq, Repr

/-- Why the machine stops without a next state. The faults of spec/60_exceptions.md are not here: the block records them and
answers (R85), which is a next state. -/
inductive Fault where
  /-- Raised by FEED when SRC_RATE holds 0: its pair count is a division by SRC_RATE, the register's legal values are
  1..0xFFFFFF, and "an illegal value is never stored" (R24), so no run reaches it. Safe: the spec gives no effect. -/
  | sourceRateZero
  deriving DecidableEq, Repr

/-- What the model has no move for. -/
inductive Refusal where
  /-- Raised by an arm of `exec` whose instruction has no meaning yet; no arm does. Safe. -/
  | notModelled (mnemonic : String)
  /-- Raised by a host access at an address outside the space's range, which "has no meaning and the model refuses it" (R38).
  Safe. -/
  | hostAddress (space : Space) (a : Nat)
  deriving DecidableEq, Repr

/-- The outcome of a command or a step. -/
abbrev Result := Host.Outcome State Fault Refusal

/-- The machine right after the power-on event (R17, R96), with nothing presented by the host and nothing answered yet. The
configuration is `Config.params`; ACC and HIST hold the free values of draw 0, and CT and OUT, with nothing listed, read as
theirs (log entries 1 and 5). -/
def State.reset : State where
  cfg       := Config.params
  ct        := []
  palBuilt  := false
  rsReady   := false
  faulted   := false
  cause     := .none
  faultInfo := 0#32
  srcRate   := Config.params.srcRate0
  dstRate   := Config.params.dstRate0
  acc       := Config.freeAcc 0
  hist      := (List.range Config.params.histLen).map (Config.freeHist 0)
  q         := []
  out       := []
  inMem     := []
  pending   := []
  responses := []
  hostReads := []
  draws     := 1
  epoch     := 0

end Sys2Proof.Machine
end

