-- ==== Sys2Proof/Machine/Operands.lean ====
section
/-! DEFINITION. The value functions of spec/00_scope.md R10 and the operand values of spec/30_encoding.md R49, and a host's byte
view of cells and words (spec/20_memory.md R37). The operand fields themselves are read in Decode.lean. -/

namespace Sys2Proof.Machine

/-- `clamp8(x) = min(255, max(0, x))` (R10): it saturates and does not wrap. -/
def clamp8 (x : Int) : Int := min 255 (max 0 x)

/-- `sat16(x) = min(32767, max(-32768, x))` (R10). -/
def sat16 (x : Int) : Int := min 32767 (max (-32768) x)

/-- `round(q) = floor(q + 1/2)`, ties up (R10, D11). -/
def roundHalfUp (q : ℚ) : Int := ⌊q + 1 / 2⌋

/-- `as_s16(v)`: the pattern read as two's complement (R10). -/
def asS16 (v : S16) : Int := v.toInt

/-- `bits16(x)`: the 16-bit two's-complement pattern (R10). -/
def bits16 (x : Int) : S16 := BitVec.ofInt 16 x

/-- `zext_32` of a bit pattern of at most 32 bits (R10). -/
def zext32 {w : Nat} (v : BitVec w) : U32 := v.setWidth 32

/-- `zext_32` of a natural number: a number that does not fit 32 bits has no stated word, and gives a free value (log entry
9). -/
def zextNat (n : Nat) : U32 := if n < 2 ^ 32 then BitVec.ofNat 32 n else Config.freeWord n

/-- The I9 operand's value, 0..511, a Color Table index (R49). -/
def indexValue (idx : U9) : Nat := idx.toNat

/-- The U24 operand's value, 0..0xFFFFFF (R49). -/
def rateValue (rate : U24) : Nat := rate.toNat

/-- The S16 operand's value, -32768..32767 (R49). -/
def sampleValue (smp : S16) : Int := asS16 smp

/-- Byte `k` of a 16-bit cell in a host's byte view: byte 0 holds bits [7:0] (R37). -/
def cellByte (v : U16) (k : Fin 2) : U8 := BitVec.extractLsb' (8 * k.val) 8 v

/-- Byte `k` of a 32-bit word in a host's byte view: bits [8k+7:8k] (R37). -/
def wordByte (v : U32) (k : Fin 4) : U8 := BitVec.extractLsb' (8 * k.val) 8 v

end Sys2Proof.Machine
end

