-- ==== Sys2Proof/Machine/Ops.lean ====
section
/-! DEFINITION. The named operations over the three storage spaces and the registers: reading and writing a memory in its
canonical form, the address maps of spec/20_memory.md R34 and R35, responding (spec/30_encoding.md R47), the fault procedure
and the refusal after a fault (spec/60_exceptions.md R85, R86), the power-on event (spec/70_reset_and_hazards.md R96) and the
interpolation kernel (spec/42_resampler.md R70). -/

namespace Sys2Proof.Machine

/-! ### Memories -/

/-- The unit written at address `a`, if anything has written it. -/
def Memory.get? {w : Nat} : Memory w → Nat → Option (BitVec w)
  | [], _ => none
  | (b, v) :: m, a => if a = b then some v else Memory.get? m a

/-- Write `v` at address `a`, keeping the addresses strictly rising. -/
def Memory.set {w : Nat} : Memory w → Nat → BitVec w → Memory w
  | [], a, v => [(a, v)]
  | (b, u) :: m, a, v =>
    if a < b then (a, v) :: (b, u) :: m
    else if a = b then (a, v) :: m
    else (b, u) :: Memory.set m a v

/-- Make every write of a list. The addresses a command writes are all different, so the order of its writes is not seen. -/
def Memory.writeAll {w : Nat} (m : Memory w) (writes : List (Nat × BitVec w)) : Memory w :=
  writes.foldr (fun c m => m.set c.1 c.2) m

/-- `CT[i]`: what BUILD wrote, or the power-on event's free value (R17). -/
def ctRead (s : State) (i : Nat) : U24 := (s.ct.get? i).getD (Config.freeCt s.epoch i)

/-- `MemRead(IN, a)`: what the host wrote, or a free value (R11; log entry 6). -/
def inRead (s : State) (a : Nat) : U16 := (s.inMem.get? a).getD (Config.freeIn a)

/-- `MemRead(OUT, a)`: what CONVERT wrote, or the power-on event's free value (R11, R29). -/
def outRead (s : State) (a : Nat) : U16 := (s.out.get? a).getD (Config.freeOut s.epoch a)

/-! ### Address maps -/

/-- How many cells IN has (R33). -/
def inSize (c : Cfg) : Nat := c.width * c.height

/-- How many cells OUT has (R33). -/
def outSize (c : Cfg) : Nat := c.outRows * c.stride

/-- The IN address of pixel (x, y) (R34). -/
def inAddr (c : Cfg) (x y : Nat) : Nat := y * c.width + x

/-- The OUT address of pixel (x, y) (R35). -/
def outAddr (c : Cfg) (x y : Nat) : Nat := y * c.stride + x

/-- The logical pixels (x, y) in row-major order (R64's two loops). -/
def pixels (c : Cfg) : List (Nat × Nat) :=
  (List.range c.height).flatMap (fun y => (List.range c.width).map (fun x => (x, y)))

/-- The OUT addresses of the logical pixels (R29). -/
def logicalAddrs (c : Cfg) : List Nat := (pixels c).map (fun p => outAddr c p.1 p.2)

/-! ### The kernel -/

/-- `P_KERNEL(HIST, num, R, T)` (R70): the value the configuration gives as data, or the constant with no body (log entry 2). -/
def kernel (c : Cfg) (hist : List S16) (num r t : Nat) : S16 :=
  match c.kernelPoints.find? (fun k => k.hist == hist && k.num == num && k.r == r && k.t == t) with
  | some k => k.value
  | none   => Config.kernel hist num r t

/-! ### Responses and faults -/

/-- `(ERR, DATA) <- (err, v)`: one more response on the response port (R47). -/
def State.answer (s : State) (err : Bool) (v : U32) : State := { s with responses := s.responses ++ [⟨err, v⟩] }

/-- `respond(v)` (R11, R47). -/
def State.respond (s : State) (v : U32) : State := s.answer false v

/-- The fault procedure `raise Fault(CAUSE, info)` (R85), the block's only trap entry. -/
def State.raiseFault (s : State) (c : Cause) (info : U32) : State :=
  State.answer { s with faulted := true, cause := c, faultInfo := info } true 0#32

/-- The refusal after a fault (R86): no state changes, and the response is (1, 0). -/
def State.refuseAfterFault (s : State) : State := s.answer true 0#32

/-- OUT after an INDEX_RANGE fault: every logical cell is a fresh draw, every other cell keeps its value (R66). -/
def State.scrambleLogical (s : State) : State :=
  { s with
    out := s.out.writeAll ((logicalAddrs s.cfg).map (fun a => (a, Config.freeOut s.draws a)))
    draws := s.draws + 1 }

/-! ### The power-on event -/

/-- The power-on event (R96): every element of the block's state takes its power-on value of R17, the unspecified ones a fresh
draw; IN, the configuration and what the host has seen are not touched. -/
def State.powerOn (s : State) : State :=
  { s with
    ct := [], palBuilt := false, rsReady := false, faulted := false, cause := .none, faultInfo := 0#32
    srcRate := s.cfg.srcRate0, dstRate := s.cfg.dstRate0
    acc := Config.freeAcc s.draws
    hist := (List.range s.cfg.histLen).map (Config.freeHist s.draws)
    q := [], out := []
    draws := s.draws + 1, epoch := s.draws }

end Sys2Proof.Machine
end

