-- ==== Sys2Proof/Machine/FrameConverter.lean ====
section
/-! DEFINITION. The Frame Converter's command CONVERT, the pack function and the check of a Console Frame cell
(spec/41_frame_converter.md R62 to R66). -/

namespace Sys2Proof.Machine

/-- `pack15(rgb)`, the source's formula (R62). -/
def pack15 (rgb : U24) : U16 :=
  (((rgb &&& 0xF80000#24) >>> 9) ||| ((rgb &&& 0x00F800#24) >>> 6) ||| ((rgb &&& 0x0000F8#24) >>> 3)).setWidth 16

/-- The palette index of a Console Frame cell, `cell[8:0]` (R63). -/
def cellIndex (cell : U16) : U9 := BitVec.extractLsb' 0 9 cell

/-- A cell with any of bits [15:9] set is not a palette index (R63). -/
def badCell (cell : U16) : Bool := BitVec.extractLsb' 9 7 cell != 0#7

/-- The IN address of the first cell, in row-major order, that is not a palette index (R64). -/
def firstBad (s : State) : Option Nat :=
  ((pixels s.cfg).map (fun p => inAddr s.cfg p.1 p.2)).find? (fun a => badCell (inRead s a))

/-- The write of one logical pixel: `MemWrite(OUT, y*P_STRIDE + x, pack15(CT[cell[8:0]]))` (R64). -/
def pixelWrite (s : State) (p : Nat × Nat) : Nat × U16 :=
  (outAddr s.cfg p.1 p.2, pack15 (ctRead s (cellIndex (inRead s (inAddr s.cfg p.1 p.2))).toNat))

/-- `CONVERT` (R64). After INDEX_RANGE the logical cells of OUT are draws, because the spec "does not fix whether the cells
before the faulting one were written" (R66). -/
def execConvert (s : State) : Result :=
  if s.palBuilt then
    match firstBad s with
    | some a => .next (s.scrambleLogical.raiseFault .indexRange (zextNat a))
    | none   => .next (State.respond { s with out := s.out.writeAll ((pixels s.cfg).map (pixelWrite s)) } 0#32)
  else .next (s.raiseFault .paletteNotBuilt 0#32)

end Sys2Proof.Machine
end

