-- ==== Sys2Proof/Machine/Palette.lean ====
section
/-! DEFINITION. The Palette Synthesizer's commands BUILD and LUT_READ, and the synthesis of a Color Table entry
(spec/40_palette.md R56 to R60). -/

namespace Sys2Proof.Machine

/-- `scale8(c, m)` in integers: `min(255, floor((2*c*m + P_FDEN) / (2*P_FDEN)))` (R56). -/
def scale8 (fden : Nat) (c : U8) (m : Nat) : U8 :=
  BitVec.ofNat 8 (min 255 ((2 * c.toNat * m + fden) / (2 * fden)))

/-- The red channel, bits [23:16] (R18). -/
def red (v : U24) : U8 := BitVec.extractLsb' 16 8 v

/-- The green channel, bits [15:8] (R18). -/
def green (v : U24) : U8 := BitVec.extractLsb' 8 8 v

/-- The blue channel, bits [7:0] (R18). -/
def blue (v : U24) : U8 := BitVec.extractLsb' 0 8 v

/-- The emphasis value of a Color Table index, `i[8:6]` (R18). -/
def emphasis (i : U9) : Nat := (BitVec.extractLsb' 6 3 i).toNat

/-- The base hue of a Color Table index, `i[5:0]` (R18). -/
def hue (i : U9) : Nat := (BitVec.extractLsb' 0 6 i).toNat

/-- `Entry(i)` (R57): the base colour unchanged for e = 0, else each channel scaled by its own factor. -/
def entry (c : Cfg) (i : U9) : U24 :=
  let e := emphasis i
  let b := c.base.getD (hue i) 0#24
  if e = 0 then b
  else
    scale8 c.fden (red b) (c.fnumR.getD e 0) ++ scale8 c.fden (green b) (c.fnumG.getD e 0)
      ++ scale8 c.fden (blue b) (c.fnumB.getD e 0)

/-- The 512 writes of BUILD (R59). Irreducible, so that comparing two states never unfolds the table; `tableWrites_eq` states it. -/
@[irreducible] def tableWrites (c : Cfg) : List (Nat × U24) := (List.range 512).map (fun i => (i, entry c (BitVec.ofNat 9 i)))

/-- `BUILD` (R59). -/
def execBuild (s : State) : Result :=
  if s.palBuilt then .next (s.raiseFault .paletteRebuild 0#32)
  else .next (State.respond { s with ct := s.ct.writeAll (tableWrites s.cfg), palBuilt := true } 0#32)

/-- `LUT_READ idx` (R60). -/
def execLutRead (idx : U9) (s : State) : Result :=
  if s.palBuilt then .next (s.respond (zext32 (ctRead s (indexValue idx))))
  else .next (s.raiseFault .paletteNotBuilt (zext32 idx))

end Sys2Proof.Machine
end

