-- ==== Sys2Proof/Machine/Resampler.lean ====
section
/-! DEFINITION. The Audio Resampler Bridge's commands RS_RESET, SET_SRC_RATE, SET_DST_RATE, GET_SRC_RATE, GET_DST_RATE, FEED,
PENDING and POP (spec/42_resampler.md R69 to R78). -/

namespace Sys2Proof.Machine

/-- `RS_RESET` (R71): ACC 0, every HIST entry 0, Q empty, RS_READY 1. -/
def execRsReset (s : State) : Result :=
  .next (State.respond
    { s with acc := 0#25, hist := List.replicate s.cfg.histLen 0#16, q := [], rsReady := true } 0#32)

/-- `SET_SRC_RATE rate` (R72); FAULT_INFO of RATE_ZERO is the command word. -/
def execSetSrcRate (rate : U24) (s : State) : Result :=
  if rateValue rate = 0 then .next (s.raiseFault .rateZero (encode (.setSrcRate rate)))
  else .next (State.respond { s with srcRate := rate, rsReady := false } 0#32)

/-- `SET_DST_RATE rate` (R73); FAULT_INFO of RATE_ZERO is the command word. -/
def execSetDstRate (rate : U24) (s : State) : Result :=
  if rateValue rate = 0 then .next (s.raiseFault .rateZero (encode (.setDstRate rate)))
  else .next (State.respond { s with dstRate := rate, rsReady := false } 0#32)

/-- `GET_SRC_RATE` (R74). -/
def execGetSrcRate (s : State) : Result := .next (s.respond (zext32 s.srcRate))

/-- `GET_DST_RATE` (R75). -/
def execGetDstRate (s : State) : Result := .next (s.respond (zext32 s.dstRate))

/-- How many pairs a FEED will push, `floor((ACC + T) / R)` (R76). -/
def pairCount (s : State) : Nat := (s.acc.toNat + s.dstRate.toNat) / s.srcRate.toNat

/-- HIST after the shift: the new sample at entry 0, every other entry one place older, the oldest dropped (R76). -/
def shiftIn (smp : S16) (hist : List S16) : List S16 := (smp :: hist).take hist.length

/-- The emission loop (R76): while ACC >= R, subtract R and emit the kernel's value at the new ACC on both channels. The first
number bounds the rounds: the loop runs exactly `floor((ACC + T) / R)` times. Answers ACC and the pairs, the oldest first. -/
def emit (value : Nat → S16) (r : Nat) : Nat → Nat → Nat × List Pair
  | 0, acc => (acc, [])
  | n + 1, acc =>
    if r ≤ acc then
      let y := value (acc - r)
      let rest := emit value r n (acc - r)
      (rest.1, ⟨y, y⟩ :: rest.2)
    else (acc, [])

/-- What a FEED's emission loop leaves: ACC, and the pairs it pushes. The kernel sees HIST after the shift (R70, R76). -/
def feedEmission (smp : S16) (s : State) : Nat × List Pair :=
  emit (fun num => kernel s.cfg (shiftIn smp s.hist) num s.srcRate.toNat s.dstRate.toNat) s.srcRate.toNat
    (pairCount s) (s.acc.toNat + s.dstRate.toNat)

/-- `FEED s` (R76): the state check, the capacity check before any change, the shift, and the emission loop. -/
def execFeed (smp : S16) (s : State) : Result :=
  if s.rsReady then
    if s.srcRate = 0#24 then .fault .sourceRateZero
    else if s.cfg.qcap < s.q.length + pairCount s then
      .next (s.raiseFault .queueOverflow (zextNat s.q.length))
    else
      let e := feedEmission smp s
      .next (State.respond
        { s with hist := shiftIn smp s.hist, acc := BitVec.ofNat 25 e.1, q := s.q ++ e.2 } 0#32)
  else .next (s.raiseFault .rsNotReady 0#32)

/-- `PENDING` (R77). -/
def execPending (s : State) : Result := .next (s.respond (zextNat s.q.length))

/-- `POP` (R78): DATA[15:0] is the left channel, DATA[31:16] the right. -/
def execPop (s : State) : Result :=
  match s.q with
  | []        => .next (s.raiseFault .queueEmpty 0#32)
  | p :: rest => .next (State.respond { s with q := rest } (p.right ++ p.left))

end Sys2Proof.Machine
end

