-- ==== Sys2Proof/Machine/Flags.lean ====
section
/-! DEFINITION. The STATUS register (spec/10_state.md R19): the code of each cause, and the word READ_STATUS answers. The block has
no condition codes and no arithmetic sets a flag (R31). -/

namespace Sys2Proof.Machine

/-- The value of `STATUS.CAUSE` for a cause (R84). -/
def causeCode : Cause → U8
  | .none            => 0x00#8
  | .illegalOpcode   => 0x01#8
  | .reservedBits    => 0x02#8
  | .paletteNotBuilt => 0x03#8
  | .paletteRebuild  => 0x04#8
  | .indexRange      => 0x05#8
  | .rsNotReady      => 0x06#8
  | .rateZero        => 0x07#8
  | .queueOverflow   => 0x08#8
  | .queueEmpty      => 0x09#8

/-- One flag as a bit. -/
def flagBit (b : Bool) : BitVec 1 := if b then 1#1 else 0#1

/-- STATUS as a word (R19): CAUSE in [15:8], FAULTED in [2], RS_READY in [1], PAL_BUILT in [0], the reserved bits [31:16] and
[7:3] hard-wired to 0. -/
def statusWord (s : State) : U32 :=
  0#16 ++ causeCode s.cause ++ 0#5 ++ flagBit s.faulted ++ flagBit s.rsReady ++ flagBit s.palBuilt

end Sys2Proof.Machine
end

