-- ==== Sys2Proof/Machine/StatusRead.lean ====
section
/-! DEFINITION. The status commands READ_STATUS and READ_FAULT_INFO (spec/43_status.md R81, R82). -/

namespace Sys2Proof.Machine

/-- `READ_STATUS` (R81). -/
def execReadStatus (s : State) : Result := .next (s.respond (statusWord s))

/-- `READ_FAULT_INFO` (R82). -/
def execReadFaultInfo (s : State) : Result := .next (s.respond s.faultInfo)

end Sys2Proof.Machine
end

