-- ==== Sys2Proof/Machine/Dispatch.lean ====
section
/-! DEFINITION. The meaning of each command once it is dispatched (spec/30_encoding.md R51 "run the command's rule"). -/

namespace Sys2Proof.Machine

def exec (i : Instr) (s : State) : Host.Outcome State Fault Refusal :=
  match i with
  | .build => Sys2Proof.Machine.execBuild s
  | .convert => Sys2Proof.Machine.execConvert s
  | .lutRead idx => Sys2Proof.Machine.execLutRead idx s
  | .rsReset => Sys2Proof.Machine.execRsReset s
  | .setSrcRate rate => Sys2Proof.Machine.execSetSrcRate rate s
  | .setDstRate rate => Sys2Proof.Machine.execSetDstRate rate s
  | .getSrcRate => Sys2Proof.Machine.execGetSrcRate s
  | .getDstRate => Sys2Proof.Machine.execGetDstRate s
  | .feed smp => Sys2Proof.Machine.execFeed smp s
  | .pending => Sys2Proof.Machine.execPending s
  | .pop => Sys2Proof.Machine.execPop s
  | .readStatus => Sys2Proof.Machine.execReadStatus s
  | .readFaultInfo => Sys2Proof.Machine.execReadFaultInfo s

end Sys2Proof.Machine
end

