-- ==== Sys2Proof/Machine/HostPort.lean ====
section
/-! DEFINITION. What the machine does with the host's next action: the dispatch of a command word (spec/30_encoding.md R51), the
host's accesses to IN and OUT (spec/20_memory.md R33, R38) and the power-on event (spec/70_reset_and_hazards.md R96). -/

namespace Sys2Proof.Machine

/-- The two words that run while the block is faulted (R51, R86). -/
def readsStatus (w : U32) : Bool := w == 0x30000000#32 || w == 0x31000000#32

/-- `Dispatch(cmd)` (R51): refusal after a fault, ILLEGAL_OPCODE, RESERVED_BITS, then the command's rule. -/
def runCommand (w : U32) (s : State) : Result :=
  if s.faulted && !readsStatus w then .next s.refuseAfterFault
  else
    match decode w with
    | .error .illegalOpcode => .next (s.raiseFault .illegalOpcode w)
    | .error .reservedBits  => .next (s.raiseFault .reservedBits w)
    | .ok i                 => exec i s

/-- The host writes an IN cell (R28, R43); outside IN's range the model refuses it (R38). -/
def hostWriteIn (a : Nat) (v : U16) (s : State) : Result :=
  if a < inSize s.cfg then .next { s with inMem := s.inMem.set a v } else .refused (.hostAddress .inFrame a)

/-- The host reads an IN cell (R33). -/
def hostReadIn (a : Nat) (s : State) : Result :=
  if a < inSize s.cfg then .next { s with hostReads := s.hostReads ++ [inRead s a] }
  else .refused (.hostAddress .inFrame a)

/-- The host reads an OUT cell (R29, R33). -/
def hostReadOut (a : Nat) (s : State) : Result :=
  if a < outSize s.cfg then .next { s with hostReads := s.hostReads ++ [outRead s a] }
  else .refused (.hostAddress .outFrame a)

/-- One action of the host, run to completion as one atomic step (R40). -/
def serve (ev : HostEvent) (s : State) : Result :=
  match ev with
  | .command w   => runCommand w s
  | .writeIn a v => hostWriteIn a v s
  | .readIn a    => hostReadIn a s
  | .readOut a   => hostReadOut a s
  | .powerOn     => .next s.powerOn

/-- Take the host's next action. With none left the block waits and "holds its state indefinitely" (R95, R96). -/
def takeEvent (s : State) : Result :=
  match s.pending with
  | []         => .next s
  | ev :: rest => serve ev { s with pending := rest }

/-- The state with the word `w` presented next on the command port. -/
def presentNext (w : U32) (s : State) : State := { s with pending := .command w :: s.pending }

end Sys2Proof.Machine
end

