-- ==== Sys2Proof/Machine/Step.lean ====
section
/-! DEFINITION. One step: the host's next action, run to completion (spec/20_memory.md R40); and how a single command is placed
where the next step takes it. -/

namespace Sys2Proof.Machine

/-- One step of the machine: one action of the host (R40, R105). -/
def step (s : State) : Host.Outcome State Fault Refusal := Sys2Proof.Machine.takeEvent s

/-- The state with the command word `w` (32 bits, numbered as spec/opcode_table.json numbers them) presented next: the block
"fetches nothing" (R16), and the next step takes its word from the command port (log entry 3). -/
def State.withFetchWord (s : State) (_nbits w : Nat) : State := Sys2Proof.Machine.presentNext (BitVec.ofNat 32 w) s

end Sys2Proof.Machine
end

