-- ==== Sys2Proof/Machine/Assembler.lean ====
section
/-! DEFINITION. The assembler of spec/30_encoding.md R54, from a line's characters to command words, and the pseudo-commands of
R55 (log entry 12). -/

namespace Sys2Proof.Machine

/-- A line of assembly: a command, or a pseudo-command of R55. -/
inductive AsmLine where
  /-- One command of R50. -/
  | command (i : Instr)
  /-- `SET_RATES r, t` (R55). -/
  | setRates (r t : U24)
  /-- `DRAIN`, a host loop (R55). -/
  | drain
  /-- `FEED_DRAIN s` (R55). -/
  | feedDrain (smp : S16)
  deriving DecidableEq, Repr

/-- The commands a line presents before any host loop: `SET_RATES r, t` is three, `FEED_DRAIN s` is `FEED s` and then DRAIN, and
DRAIN "is not a command sequence of fixed length" (R55). -/
def lineCommands : AsmLine → List Instr
  | .command i     => [i]
  | .setRates r t  => [.setSrcRate r, .setDstRate t, .rsReset]
  | .drain         => []
  | .feedDrain smp => [.feed smp]

/-- Whether a line ends in the host loop DRAIN (R55). -/
def lineDrains : AsmLine → Bool
  | .command _    => false
  | .setRates _ _ => false
  | .drain        => true
  | .feedDrain _  => true

/-! ### Numbers -/

/-- A decimal digit's value. -/
def decDigit (c : Char) : Option Nat :=
  if 48 ≤ c.toNat ∧ c.toNat ≤ 57 then some (c.toNat - 48) else none

/-- A hexadecimal digit's value. -/
def hexDigit (c : Char) : Option Nat :=
  if 97 ≤ c.toNat ∧ c.toNat ≤ 102 then some (c.toNat - 87)
  else if 65 ≤ c.toNat ∧ c.toNat ≤ 70 then some (c.toNat - 55)
  else decDigit c

/-- Digits of a base, the most significant first, after the value `n` so far. -/
def readDigits (base : Nat) (digit : Char → Option Nat) : Nat → List Char → Option Nat
  | n, []      => some n
  | n, c :: cs =>
    match digit c with
    | some d => readDigits base digit (n * base + d) cs
    | none   => none

/-- "Numbers are decimal unless written 0x..." (R54). -/
def readNumber : List Char → Option Nat
  | []                  => none
  | ['0', 'x']          => none
  | '0' :: 'x' :: c :: cs => readDigits 16 hexDigit 0 (c :: cs)
  | c :: cs             => readDigits 10 decDigit 0 (c :: cs)

/-- FEED's operand: -32768..32767 in decimal, "or as 0x followed by up to four hex digits giving the 16-bit pattern" (R54). -/
def readSample (cs : List Char) : Option S16 :=
  match cs with
  | '-' :: ds =>
    match ds with
    | [] => none
    | _  => (readDigits 10 decDigit 0 ds).bind (fun n => if n ≤ 32768 then some (bits16 (-(n : Int))) else none)
  | '0' :: 'x' :: ds =>
    if ds.length ≤ 4 then (readNumber cs).map (BitVec.ofNat 16) else none
  | _ => (readNumber cs).bind (fun n => if n ≤ 32767 then some (bits16 n) else none)

/-- A rate operand: 1..16777215, and 0, which "encodes and faults at run time" (R54). -/
def readRate (cs : List Char) : Option U24 :=
  (readNumber cs).bind (fun n => if n ≤ 16777215 then some (BitVec.ofNat 24 n) else none)

/-- An index operand, 0..511 (R54). -/
def readIndex (cs : List Char) : Option U9 :=
  (readNumber cs).bind (fun n => if n ≤ 511 then some (BitVec.ofNat 9 n) else none)

/-! ### Lines -/

/-- The word read so far, if there is one (its characters are held last first). -/
def flushToken (cur : List Char) : List (List Char) :=
  match cur with
  | [] => []
  | _  => [cur.reverse]

/-- Split a line at blanks, a comma being a token of its own, and stop at `;`, which starts a comment (R54). -/
def tokens : List Char → List Char → List (List Char)
  | cur, []      => flushToken cur
  | cur, c :: cs =>
    if c = ';' then flushToken cur
    else if c = ' ' ∨ c = '\t' then flushToken cur ++ tokens [] cs
    else if c = ',' then flushToken cur ++ [[',']] ++ tokens [] cs
    else tokens (c :: cur) cs

/-- The mnemonics that take no operand. -/
def plainLines : List (List Char × AsmLine) :=
  [("BUILD".toList,           .command .build),
   ("CONVERT".toList,         .command .convert),
   ("RS_RESET".toList,        .command .rsReset),
   ("GET_SRC_RATE".toList,    .command .getSrcRate),
   ("GET_DST_RATE".toList,    .command .getDstRate),
   ("PENDING".toList,         .command .pending),
   ("POP".toList,             .command .pop),
   ("READ_STATUS".toList,     .command .readStatus),
   ("READ_FAULT_INFO".toList, .command .readFaultInfo),
   ("DRAIN".toList,           .drain)]

/-- A mnemonic with its one operand. -/
def operandLine (m operand : List Char) : Option AsmLine :=
  if m = "LUT_READ".toList then (readIndex operand).map (fun i => .command (.lutRead i))
  else if m = "SET_SRC_RATE".toList then (readRate operand).map (fun r => .command (.setSrcRate r))
  else if m = "SET_DST_RATE".toList then (readRate operand).map (fun r => .command (.setDstRate r))
  else if m = "FEED".toList then (readSample operand).map (fun s => .command (.feed s))
  else if m = "FEED_DRAIN".toList then (readSample operand).map .feedDrain
  else none

/-- Read one line (R54, R55); `none` for a line the syntax does not give. -/
def parseLine (line : List Char) : Option AsmLine :=
  match tokens [] line with
  | [m]             => (plainLines.find? (fun r => r.1 == m)).map (fun r => r.2)
  | [m, a]          => operandLine m a
  | [m, a, [','], b] =>
    if m = "SET_RATES".toList then
      (readRate a).bind (fun r => (readRate b).map (fun t => .setRates r t))
    else none
  | _ => none

/-- The words of a line that is no host loop: `(OP << 24) | operand bits` for each command (R54). -/
def assemble (line : List Char) : Option (List U32) :=
  (parseLine line).bind (fun l => if lineDrains l then none else some ((lineCommands l).map encode))

end Sys2Proof.Machine
end

