-- ==== Sys2Proof/Machine/HostProtocol.lean ====
section
/-! DEFINITION. What the host must do around the block, as programs over its actions: presenting words, the host loop DRAIN of
spec/30_encoding.md R55, and the boot sequence, session reset, frame and audio tick of
spec/70_reset_and_hazards.md R97 to R100 (log entry 13). -/

namespace Sys2Proof.Machine

/-- The host's next action is `ev`: one step. -/
def hostDo (ev : HostEvent) (s : State) : Result := step { s with pending := ev :: s.pending }

/-- The host does a list of actions, the first first, stopping where the machine stops. -/
def hostDoAll : List HostEvent → State → Result
  | [], s => .next s
  | ev :: evs, s =>
    match hostDo ev s with
    | .next t    => hostDoAll evs t
    | .fault r   => .fault r
    | .refused r => .refused r

/-- Present a command and wait for its response (R101). -/
def present (i : Instr) (s : State) : Result := hostDo (.command (encode i)) s

/-- Present a list of commands, one at a time. -/
def presentAll (is : List Instr) (s : State) : Result := hostDoAll (is.map (fun i => .command (encode i))) s

/-- DATA of the last response. -/
def lastData (s : State) : U32 := (s.responses.getLast?.getD ⟨false, 0#32⟩).data

/-- DRAIN (R55): present PENDING; stop when its DATA is 0; else present POP DATA times and begin again. The number bounds the
rounds. -/
def drainLoop : Nat → State → Result
  | 0, s => .next s
  | k + 1, s =>
    match present .pending s with
    | .next t =>
      if lastData t = 0#32 then .next t
      else
        match presentAll (List.replicate (lastData t).toNat .pop) t with
        | .next u    => drainLoop k u
        | .fault r   => .fault r
        | .refused r => .refused r
    | .fault r   => .fault r
    | .refused r => .refused r

/-- DRAIN: two rounds always reach PENDING's 0, since nothing but FEED fills Q. -/
def drain (s : State) : Result := drainLoop 2 s

/-- Run a line of assembly (R54, R55). -/
def runLine (l : AsmLine) (s : State) : Result :=
  match presentAll (lineCommands l) s with
  | .next t    => if lineDrains l then drain t else .next t
  | .fault r   => .fault r
  | .refused r => .refused r

/-- The boot sequence (R97): BUILD, the rates if others than the power-on ones are wanted, RS_RESET. -/
def bootSequence (rates : Option (U24 × U24)) : List Instr :=
  match rates with
  | none        => [.build, .rsReset]
  | some (r, t) => [.build, .setSrcRate r, .setDstRate t, .rsReset]

/-- A session reset (R98): the host presents RS_RESET, and nothing else. -/
def sessionReset : List Instr := [.rsReset]

/-- One audio tick (R100): FEED the sample, then drain. -/
def audioTick (smp : S16) (s : State) : Result := runLine (.feedDrain smp) s

/-- The audio ticks of a list of samples, in order (R100). -/
def audioTicks : List S16 → State → Result
  | [], s => .next s
  | smp :: smps, s =>
    match audioTick smp s with
    | .next t    => audioTicks smps t
    | .fault r   => .fault r
    | .refused r => .refused r

/-- The host's writes of a whole frame, one cell for each IN address from 0 (R99, R101). -/
def frameWrites (cells : List U16) : List HostEvent := cells.zipIdx.map (fun c => .writeIn c.2 c.1)

/-- What the host hands its video sink: OUT, the logical size, the row stride (R99). -/
structure SinkFrame where
  pixels : Memory 16
  width  : Nat
  height : Nat
  stride : Nat
  deriving DecidableEq, Repr

/-- One video frame (R99): write IN, present CONVERT. -/
def videoFrame (cells : List U16) (s : State) : Result :=
  match hostDoAll (frameWrites cells) s with
  | .next t    => present .convert t
  | .fault r   => .fault r
  | .refused r => .refused r

/-- What the host hands its video sink after CONVERT: a frame on the response (0, 0), else nothing (R99). -/
def sinkFrame (s : State) : Option SinkFrame :=
  if s.responses.getLast? = some ⟨false, 0#32⟩ then some ⟨s.out, s.cfg.width, s.cfg.height, s.cfg.stride⟩ else none

end Sys2Proof.Machine
end

