-- ==== Sys2Proof/Safety.lean ====
section
/-! DEFINITION. What claims are stated in: the invariant of the states a run reaches, a run at fault and a good end
(spec/60_exceptions.md R86, spec/70_reset_and_hazards.md R105), and when two states differ only in what the spec leaves
unspecified (spec/10_state.md R17). -/

namespace Sys2Proof.Machine

/-- A run whose last state has FAULTED = 1 is "a run at fault, never a good final state" (R105). -/
def State.AtFault (s : State) : Prop := s.faulted = true

/-- What a claim takes as a premise about the end of a run (R86): "STATUS.FAULTED = 0 at the end". -/
def State.Good (s : State) : Prop := s.faulted = false

/-- The registers' legal values: the rates are never 0 (R24), HIST has P_HIST_LEN entries (R26), Q at most P_QCAP pairs (R27),
and ACC < SRC_RATE whenever RS_READY is 1 (R25). -/
structure State.RegistersOk (s : State) : Prop where
  src  : s.srcRate ≠ 0#24
  dst  : s.dstRate ≠ 0#24
  hist : s.hist.length = s.cfg.histLen
  q    : s.q.length ≤ s.cfg.qcap
  acc  : s.rsReady = true → s.acc.toNat < s.srcRate.toNat

/-- The three spaces: canonical, and every listed address in the space's range (R33, R38). -/
structure State.MemoriesOk (s : State) : Prop where
  ctWf      : s.ct.wf
  ctRange   : s.ct.within 512
  inWf      : s.inMem.wf
  inRange   : s.inMem.within (inSize s.cfg)
  outWf     : s.out.wf
  outRange  : s.out.within (outSize s.cfg)

/-- The fault record: FAULTED and CAUSE agree, and FAULT_INFO is 0 until the first fault (R22, R23, R84). -/
structure State.FaultRecordOk (s : State) : Prop where
  cause : s.faulted = true ↔ s.cause ≠ .none
  info  : s.faulted = false → s.faultInfo = 0#32

/-- Every pair in Q is duplicated mono: left = right (R76). -/
def State.QueueMono (s : State) : Prop := ∀ p ∈ s.q, p.left = p.right

/-- Once PAL_BUILT is 1, CT[i] = Entry(i) for every i (R61). -/
def State.TableOk (s : State) : Prop := s.palBuilt = true → ∀ i : U9, ctRead s i.toNat = entry s.cfg i

/-- The invariant of the machine. -/
structure State.Inv (s : State) : Prop where
  registers : s.RegistersOk
  memories  : s.MemoriesOk
  record    : s.FaultRecordOk
  mono      : s.QueueMono
  table     : s.TableOk

/-- Two states that differ at most in what the spec calls unspecified: CT before BUILD, ACC and HIST before RS_RESET, OUT, and
the model's own counters of draws (R17, U3 to U8). `hostReads` is left out too: a host that reads an unspecified cell sees it. -/
structure State.Agree (s t : State) : Prop where
  cfg       : s.cfg = t.cfg
  palBuilt  : s.palBuilt = t.palBuilt
  rsReady   : s.rsReady = t.rsReady
  faulted   : s.faulted = t.faulted
  cause     : s.cause = t.cause
  faultInfo : s.faultInfo = t.faultInfo
  srcRate   : s.srcRate = t.srcRate
  dstRate   : s.dstRate = t.dstRate
  q         : s.q = t.q
  inMem     : s.inMem = t.inMem
  pending   : s.pending = t.pending
  responses : s.responses = t.responses
  ct        : s.palBuilt = true → ∀ i : U9, ctRead s i.toNat = ctRead t i.toNat
  acc       : s.rsReady = true → s.acc = t.acc
  hist      : s.rsReady = true → s.hist = t.hist

/-- What a run shows at its end (R105). -/
structure Shown where
  responses : List Response
  status    : U32
  faultInfo : U32
  q         : List Pair
  deriving DecidableEq, Repr

/-- What a run shows at its end, but for OUT's logical pixels, which `logicalPixels` gives (R105). -/
def State.shown (s : State) : Shown := ⟨s.responses, statusWord s, s.faultInfo, s.q⟩

/-- OUT's logical pixels in row-major order (R105), meaningful after a CONVERT that completed and no INDEX_RANGE after it. -/
def State.logicalPixels (s : State) : List U16 := (logicalAddrs s.cfg).map (outRead s)

/-! ### What a command leaves unchanged, part by part -/

/-- One more response, `(ERR, DATA)` = `(err, v)` (R47). -/
def Answered (s t : State) (err : Bool) (v : U32) : Prop := t.responses = s.responses ++ [⟨err, v⟩]

/-- The Color Table and PAL_BUILT are unchanged. -/
def SameTable (s t : State) : Prop := t.palBuilt = s.palBuilt ∧ ∀ i, ctRead t i = ctRead s i

/-- The rates, RS_READY, ACC, HIST and Q are unchanged. -/
def SameResampler (s t : State) : Prop :=
  t.srcRate = s.srcRate ∧ t.dstRate = s.dstRate ∧ t.rsReady = s.rsReady ∧ t.acc = s.acc ∧ t.hist = s.hist ∧ t.q = s.q

/-- FAULTED, CAUSE and FAULT_INFO are unchanged. -/
def SameRecord (s t : State) : Prop := t.faulted = s.faulted ∧ t.cause = s.cause ∧ t.faultInfo = s.faultInfo

/-- Every cell of IN reads as before. -/
def SameIn (s t : State) : Prop := ∀ a, inRead t a = inRead s a

/-- Every cell of OUT reads as before. -/
def SameOut (s t : State) : Prop := ∀ a, outRead t a = outRead s a

/-- The configuration, what the host is still to do and what it has read are unchanged. -/
def SameHost (s t : State) : Prop := t.cfg = s.cfg ∧ t.pending = s.pending ∧ t.hostReads = s.hostReads

/-- The fault procedure with cause `c` and information `info`, every part of the state but OUT, STATUS and FAULT_INFO as before
(R85). -/
def Trapped (s t : State) (c : Cause) (info : U32) : Prop :=
  t.faulted = true ∧ t.cause = c ∧ t.faultInfo = info ∧ Answered s t true 0#32
    ∧ SameTable s t ∧ SameResampler s t ∧ SameIn s t ∧ SameHost s t

/-- A command that reads: one response, and nothing else changed (R39). -/
def OnlyAnswered (s t : State) (v : U32) : Prop :=
  Answered s t false v ∧ SameTable s t ∧ SameResampler s t ∧ SameRecord s t ∧ SameIn s t ∧ SameOut s t ∧ SameHost s t

/-- The OUT cell `a` is a logical pixel (R29). -/
def IsLogical (c : Cfg) (a : Nat) : Prop := ∃ x y, x < c.width ∧ y < c.height ∧ a = outAddr c x y

/-- Every cell of the frame is a palette index (R63). -/
def FrameOk (s : State) : Prop := ∀ x y, x < s.cfg.width → y < s.cfg.height → badCell (inRead s (inAddr s.cfg x y)) = false

/-! ### Runs of the resampler -/

/-- A FEED. -/
def isFeed : Instr → Bool
  | .feed _ => true
  | .build | .convert | .lutRead _ | .rsReset | .setSrcRate _ | .setDstRate _ | .getSrcRate | .getDstRate | .pending | .pop
  | .readStatus | .readFaultInfo => false

/-- A POP. -/
def isPop : Instr → Bool
  | .pop => true
  | .build | .convert | .lutRead _ | .rsReset | .setSrcRate _ | .setDstRate _ | .getSrcRate | .getDstRate | .feed _ | .pending
  | .readStatus | .readFaultInfo => false

/-- A command that may stand between the FEEDs that R80 counts: every one but a reset of the resampler and a rate change. -/
def keepsSession : Instr → Bool
  | .rsReset | .setSrcRate _ | .setDstRate _ => false
  | .build | .convert | .lutRead _ | .getSrcRate | .getDstRate | .feed _ | .pending | .pop | .readStatus | .readFaultInfo => true

/-- The responses of an audio tick that pushes the mono values `ys` (R55, R100): FEED's (0, 0), PENDING's count, one pair a POP,
and, if there was a pair, PENDING's 0. -/
def tickResponses (ys : List S16) : List Response :=
  [⟨false, 0#32⟩, ⟨false, BitVec.ofNat 32 ys.length⟩] ++ ys.map (fun y : S16 => ⟨false, y ++ y⟩)
    ++ (if ys = [] then [] else [⟨false, 0#32⟩])

/-! ### Faults -/

/-- R52's unassigned opcodes. -/
def Unassigned (op : Nat) : Prop :=
  op = 0x00 ∨ (0x04 ≤ op ∧ op ≤ 0x0F) ∨ (0x18 ≤ op ∧ op ≤ 0x2F) ∨ (0x32 ≤ op ∧ op ≤ 0xFF)

/-- R84: each recorded cause is raised by the commands of its row, on the row's condition, with the row's FAULT_INFO. -/
def FaultRow (s : State) (w info : U32) : Cause → Prop
  | .none => False
  | .illegalOpcode => Unassigned (opField w).toNat ∧ info = w
  | .reservedBits => (∃ r ∈ rows, r.op = opField w ∧ w &&& reservedBits r.form ≠ 0#32) ∧ info = w
  | .paletteNotBuilt =>
    s.palBuilt = false ∧ ((w = encode .convert ∧ info = 0#32) ∨ ∃ idx : U9, w = encode (.lutRead idx) ∧ info = zext32 idx)
  | .paletteRebuild => s.palBuilt = true ∧ w = encode .build ∧ info = 0#32
  | .indexRange =>
    w = encode .convert ∧ ∃ a, info = zextNat a ∧ a < inSize s.cfg ∧ badCell (inRead s a) = true
      ∧ ∀ b, b < a → badCell (inRead s b) = false
  | .rsNotReady => s.rsReady = false ∧ (∃ smp, w = encode (.feed smp)) ∧ info = 0#32
  | .rateZero => (w = encode (.setSrcRate 0#24) ∨ w = encode (.setDstRate 0#24)) ∧ info = w
  | .queueOverflow =>
    s.cfg.qcap < s.q.length + (s.acc.toNat + s.dstRate.toNat) / s.srcRate.toNat ∧ (∃ smp, w = encode (.feed smp))
      ∧ info = zextNat s.q.length
  | .queueEmpty => s.q = [] ∧ w = encode .pop ∧ info = 0#32

end Sys2Proof.Machine
end

