-- ==== Sys2Proof/Certificates/Slice0/Obligations.lean ====
section
/-! DEFINITION. The statements for the provers, from the numbered rules of spec/. Each is about every state and operand that meets
its hypotheses; a name of spec/ in a docstring is the rule it formalises. -/

open Sys2Proof Sys2Proof.Machine

/-! ### Encoding -/

/-- R48, R49, R50, R54: the word of every command, at every operand value, decodes to that command. -/
def Obligations.DecodeOfEncode : Prop := ∀ i : Instr, decode (encode i) = .ok i

/-- R48, R49, R50: a word has one meaning: a word that decodes is the word of the command it decodes to. -/
def Obligations.EncodeOfDecode : Prop := ∀ (w : U32) (i : Instr), decode w = .ok i → encode i = w

/-- R50: the full-word match and mask of the thirteen rows. -/
def Obligations.OpcodeMapMatchAndMask : Prop :=
  rows.map (fun r => (rowMatch r, rowMask r)) =
    [(0x01000000#32, 0xFFFFFFFF#32), (0x02000000#32, 0xFFFFFFFF#32), (0x03000000#32, 0xFFFFFE00#32),
     (0x10000000#32, 0xFFFFFFFF#32), (0x11000000#32, 0xFF000000#32), (0x12000000#32, 0xFF000000#32),
     (0x13000000#32, 0xFFFFFFFF#32), (0x14000000#32, 0xFFFFFFFF#32), (0x15000000#32, 0xFFFF0000#32),
     (0x16000000#32, 0xFFFFFFFF#32), (0x17000000#32, 0xFFFFFFFF#32), (0x30000000#32, 0xFFFFFFFF#32),
     (0x31000000#32, 0xFFFFFFFF#32)]

/-- R54: words written out from the spec's examples decode to their commands, and three words of R52 and R51 are refused. -/
def Obligations.SpecWordsDecode : Prop :=
  decode 0x01000000#32 = .ok .build ∧ decode 0x030001FF#32 = .ok (.lutRead 511#9)
    ∧ decode 0x1200BB80#32 = .ok (.setDstRate 48000#24) ∧ decode 0x1500FFFF#32 = .ok (.feed 0xFFFF#16)
    ∧ decode 0x17000000#32 = .ok .pop ∧ decode 0x31000000#32 = .ok .readFaultInfo
    ∧ decode 0x00000000#32 = .error .illegalOpcode ∧ decode 0xFFFFFFFF#32 = .error .illegalOpcode
    ∧ decode 0x03000200#32 = .error .reservedBits

/-- R52: with no fault recorded, a word faults ILLEGAL_OPCODE, with FAULT_INFO the word, exactly for the unassigned opcodes; the
words of all zeros and all ones are among them. -/
def Obligations.UnassignedOpcodesAreIllegal : Prop :=
  (∀ (s : State) (w : U32) (rest : List HostEvent), s.faulted = false → s.pending = .command w :: rest →
    Unassigned (opField w).toNat →
      ∃ t, step s = .next t ∧ Trapped { s with pending := rest } t .illegalOpcode w ∧ SameOut s t)
  ∧ (∀ w : U32, decode w = .error .illegalOpcode ↔ Unassigned (opField w).toNat)
  ∧ Unassigned (opField 0x00000000#32).toNat ∧ Unassigned (opField 0xFFFFFFFF#32).toNat

/-- R49, R51: with no fault recorded, a word with an assigned opcode and a must-be-0 bit set faults RESERVED_BITS, with
FAULT_INFO the word. -/
def Obligations.ReservedBitsFault : Prop :=
  ∀ (s : State) (w : U32) (rest : List HostEvent) (r : Row), s.faulted = false → s.pending = .command w :: rest →
    r ∈ rows → r.op = opField w → w &&& reservedBits r.form ≠ 0#32 →
      ∃ t, step s = .next t ∧ Trapped { s with pending := rest } t .reservedBits w ∧ SameOut s t

/-! ### Dispatch -/

/-- R51: a step on a presented word that decodes runs that command on the state without the word, when the block is not faulted
or the word is one of the two status reads. -/
def Obligations.StepRunsTheDecodedCommand : Prop :=
  ∀ (s : State) (w : U32) (rest : List HostEvent) (i : Instr), s.pending = .command w :: rest → decode w = .ok i →
    (s.faulted = false ∨ w = 0x30000000#32 ∨ w = 0x31000000#32) → step s = exec i { s with pending := rest }

/-- R86: while FAULTED is 1, every word but the two status reads changes no state, records no new cause and answers (1, 0); every
step but the power-on event keeps FAULTED, CAUSE and FAULT_INFO; and the power-on event clears the fault. -/
def Obligations.FaultedBlockRefuses : Prop :=
  (∀ (s : State) (w : U32) (rest : List HostEvent), s.faulted = true → s.pending = .command w :: rest →
    w ≠ 0x30000000#32 → w ≠ 0x31000000#32 →
      step s = .next { s with pending := rest, responses := s.responses ++ [⟨true, 0#32⟩] })
  ∧ (∀ (s t : State) (ev : HostEvent) (rest : List HostEvent), s.faulted = true → s.pending = ev :: rest →
      ev ≠ .powerOn → step s = .next t → SameRecord s t)
  ∧ (∀ (s : State) (rest : List HostEvent), s.pending = .powerOn :: rest →
      ∃ t, step s = .next t ∧ t.faulted = false ∧ t.cause = .none ∧ t.faultInfo = 0#32)

/-- R87: the order in which the causes of one word are decided, each level whatever the lower levels say; with the rule's example,
the word 0x02000001. -/
def Obligations.FaultPriority : Prop :=
  decode 0x02000001#32 = .error .reservedBits
  ∧ ∀ (s : State) (w : U32) (rest : List HostEvent), s.pending = .command w :: rest →
    (s.faulted = true → readsStatus w = false → ∃ t, step s = .next t ∧ t.cause = s.cause ∧ t.faultInfo = s.faultInfo)
    ∧ (s.faulted = false → decode w = .error .illegalOpcode → ∃ t, step s = .next t ∧ t.cause = .illegalOpcode)
    ∧ (s.faulted = false → decode w = .error .reservedBits → ∃ t, step s = .next t ∧ t.cause = .reservedBits)
    ∧ (s.faulted = false → s.palBuilt = false → (decode w = .ok .convert ∨ ∃ idx, decode w = .ok (.lutRead idx)) →
        ∃ t, step s = .next t ∧ t.cause = .paletteNotBuilt)
    ∧ (s.faulted = false → s.palBuilt = true → decode w = .ok .build → ∃ t, step s = .next t ∧ t.cause = .paletteRebuild)
    ∧ (s.faulted = false → s.rsReady = false → (∃ smp, decode w = .ok (.feed smp)) →
        ∃ t, step s = .next t ∧ t.cause = .rsNotReady)
    ∧ (s.faulted = false → s.q = [] → decode w = .ok .pop → ∃ t, step s = .next t ∧ t.cause = .queueEmpty)
    ∧ (s.faulted = false → (decode w = .ok (.setSrcRate 0#24) ∨ decode w = .ok (.setDstRate 0#24)) →
        ∃ t, step s = .next t ∧ t.cause = .rateZero)
    ∧ (s.faulted = false → s.rsReady = true → s.srcRate ≠ 0#24 → s.cfg.qcap < s.q.length + pairCount s →
        (∃ smp, decode w = .ok (.feed smp)) → ∃ t, step s = .next t ∧ t.cause = .queueOverflow)
    ∧ (s.faulted = false → s.palBuilt = true → (∃ x y, x < s.cfg.width ∧ y < s.cfg.height
          ∧ badCell (inRead s (inAddr s.cfg x y)) = true) → decode w = .ok .convert →
        ∃ t, step s = .next t ∧ t.cause = .indexRange)

/-- R85: a command that newly faults answers (1, 0) and records a cause; it changes nothing else, but that after INDEX_RANGE the
logical cells of OUT are not as before (R66). -/
def Obligations.FaultsArePrecise : Prop :=
  ∀ (s t : State) (w : U32) (rest : List HostEvent), s.faulted = false → s.pending = .command w :: rest →
    step s = .next t → t.faulted = true →
      Trapped { s with pending := rest } t t.cause t.faultInfo ∧ t.cause ≠ .none
      ∧ (t.cause ≠ .indexRange → SameOut s t) ∧ (∀ a, ¬ IsLogical s.cfg a → outRead t a = outRead s a)

/-- R84: a command that newly faults meets the row of the cause it records. -/
def Obligations.RecordedCauseMeetsItsRow : Prop :=
  ∀ (s t : State) (w : U32) (rest : List HostEvent), s.faulted = false → s.pending = .command w :: rest →
    step s = .next t → t.faulted = true → FaultRow s w t.faultInfo t.cause

/-- R47: every command word gives exactly one response; it is (1, 0) exactly when the word is refused or newly faults. -/
def Obligations.EveryCommandAnswersOnce : Prop :=
  ∀ (s : State) (w : U32) (rest : List HostEvent), s.srcRate ≠ 0#24 → s.pending = .command w :: rest →
    ∃ t r, step s = .next t ∧ t.responses = s.responses ++ [r]
      ∧ (r.err = true → r.data = 0#32)
      ∧ (r.err = false ↔ t.faulted = false ∨ (s.faulted = true ∧ readsStatus w = true))

/-! ### Palette Synthesizer -/

/-- R56: scale8 is the exact rational product, rounded half up, then clamped to 0..255, which in integers is
min(255, floor((2cm + P_FDEN) / (2 P_FDEN))); and the rule's corner cases: saturation, a tie that rounds up, a zero channel, a
zero factor. -/
def Obligations.ScaleIsExactRoundThenClamp : Prop :=
  (∀ (fden m : Nat) (c : U8), 1 ≤ fden →
    ((scale8 fden c m).toNat : Int) = clamp8 (roundHalfUp ((c.toNat : ℚ) * m / fden))
    ∧ (scale8 fden c m).toNat = min 255 ((2 * c.toNat * m + fden) / (2 * fden))
    ∧ scale8 fden 0#8 m = 0#8 ∧ scale8 fden c 0 = 0#8)
  ∧ scale8 1000 252#8 1239 = 255#8 ∧ scale8 1000 6#8 750 = 5#8

/-- R57 and section 8's property: for every index, the emphasis values 0 to 7 alike, each channel of Entry is the base colour's
channel scaled by that emphasis value's factor. -/
def Obligations.EntryChannelsAreScaled : Prop :=
  ∀ (c : Cfg) (i : U9),
    red (entry c i) = scale8 c.fden (red (c.base.getD (hue i) 0#24)) (c.fnumR.getD (emphasis i) 0)
    ∧ green (entry c i) = scale8 c.fden (green (c.base.getD (hue i) 0#24)) (c.fnumG.getD (emphasis i) 0)
    ∧ blue (entry c i) = scale8 c.fden (blue (c.base.getD (hue i) 0#24)) (c.fnumB.getD (emphasis i) 0)
    ∧ (emphasis i = 0 → entry c i = c.base.getD (hue i) 0#24)
    ∧ i.toNat = emphasis i * 64 + hue i

/-- R59: BUILD completes while PAL_BUILT is 0: every entry becomes Entry(i), PAL_BUILT becomes 1, the response is (0, 0), and
nothing else changes. While PAL_BUILT is 1 it faults PALETTE_REBUILD and writes nothing. Its one legal word is 0x01000000. -/
def Obligations.BuildWritesTheTableOnce : Prop :=
  encode .build = 0x01000000#32 ∧ ∀ s : State,
    (s.palBuilt = false →
      ∃ t, exec .build s = .next t ∧ (∀ i : U9, ctRead t i.toNat = entry s.cfg i) ∧ t.palBuilt = true
        ∧ Answered s t false 0#32 ∧ SameResampler s t ∧ SameRecord s t ∧ SameIn s t ∧ SameOut s t ∧ SameHost s t)
    ∧ (s.palBuilt = true → ∃ t, exec .build s = .next t ∧ Trapped s t .paletteRebuild 0#32 ∧ SameOut s t)

/-- R60: LUT_READ answers the entry, zero-extended, while PAL_BUILT is 1, and changes nothing else; else it faults
PALETTE_NOT_BUILT with the index. Its word is 0x03000000 with the index in bits [8:0]. -/
def Obligations.LutReadAnswersTheEntry : Prop :=
  ∀ (s : State) (idx : U9),
    encode (.lutRead idx) = 0x03#8 ++ 0#15 ++ idx
    ∧ (s.palBuilt = true → ∃ t, exec (.lutRead idx) s = .next t ∧ OnlyAnswered s t (0#8 ++ ctRead s idx.toNat))
    ∧ (s.palBuilt = false → ∃ t, exec (.lutRead idx) s = .next t
        ∧ Trapped s t .paletteNotBuilt (0#23 ++ idx) ∧ SameOut s t)

/-- R61: in a state of the invariant with PAL_BUILT 1, LUT_READ of every index answers Entry of it. -/
def Obligations.BuiltTableAnswersEntry : Prop :=
  ∀ (s : State) (idx : U9), s.Inv → s.palBuilt = true →
    ∃ t, exec (.lutRead idx) s = .next t ∧ Answered s t false (0#8 ++ entry s.cfg idx)

/-- R20: PAL_BUILT becomes 1 only by a BUILD that completes and becomes 0 only by the power-on event, and once it is 1 every
step but the power-on event leaves the Color Table as it is (R18, R61). -/
def Obligations.TableIsBuiltOnceAndKept : Prop :=
  ∀ (s t : State) (ev : HostEvent) (rest : List HostEvent), s.pending = ev :: rest → step s = .next t →
    (s.palBuilt = false → t.palBuilt = true → ev = .command (encode .build) ∧ s.faulted = false)
    ∧ (s.palBuilt = true → ev ≠ .powerOn → SameTable s t)
    ∧ (ev = .powerOn → t.palBuilt = false)

/-! ### Frame Converter -/

/-- R62: pack15 bit by bit, and the rule's four examples. -/
def Obligations.PackKeepsTheHighFiveBits : Prop :=
  (∀ rgb : U24, (pack15 rgb).getLsbD 15 = false
    ∧ BitVec.extractLsb' 10 5 (pack15 rgb) = BitVec.extractLsb' 19 5 rgb
    ∧ BitVec.extractLsb' 5 5 (pack15 rgb) = BitVec.extractLsb' 11 5 rgb
    ∧ BitVec.extractLsb' 0 5 (pack15 rgb) = BitVec.extractLsb' 3 5 rgb)
  ∧ pack15 0x7C7C7C#24 = 0x3DEF#16 ∧ pack15 0xFFFFFF#24 = 0x7FFF#16 ∧ pack15 0x070707#24 = 0x0000#16
  ∧ pack15 0xF80000#24 = 0x7C00#16

/-- R64: CONVERT completes while PAL_BUILT is 1 and every cell is an index: every logical pixel of OUT becomes pack15 of its cell's
Color Table entry, every other OUT cell is unchanged, the response is (0, 0), and nothing else changes. While PAL_BUILT is 1 it
faults INDEX_RANGE at the first bad cell in row-major order, with FAULT_INFO that cell's IN address (where it fits FAULT_INFO's 32
bits), and every OUT cell but the logical ones is unchanged. While PAL_BUILT is 0 it faults PALETTE_NOT_BUILT and writes nothing. -/
def Obligations.ConvertTranslatesTheFrame : Prop :=
  encode .convert = 0x02000000#32
  ∧ (∀ cell : U16, badCell cell = true ↔ BitVec.extractLsb' 9 7 cell ≠ 0#7)
  ∧ (∀ s : State, s.palBuilt = true → FrameOk s →
      ∃ t, exec .convert s = .next t
        ∧ (∀ x y, x < s.cfg.width → y < s.cfg.height →
            outRead t (y * s.cfg.stride + x)
              = pack15 (ctRead s (BitVec.extractLsb' 0 9 (inRead s (y * s.cfg.width + x))).toNat))
        ∧ (∀ a, ¬ IsLogical s.cfg a → outRead t a = outRead s a)
        ∧ Answered s t false 0#32 ∧ SameTable s t ∧ SameResampler s t ∧ SameRecord s t ∧ SameIn s t ∧ SameHost s t)
  ∧ (∀ (s : State) (x y : Nat), s.palBuilt = true → x < s.cfg.width → y < s.cfg.height →
      badCell (inRead s (y * s.cfg.width + x)) = true →
      (∀ b, b < y * s.cfg.width + x → badCell (inRead s b) = false) →
        ∃ t, exec .convert s = .next t ∧ Trapped s t .indexRange t.faultInfo
          ∧ (y * s.cfg.width + x < 2 ^ 32 → t.faultInfo.toNat = y * s.cfg.width + x)
          ∧ (∀ a, ¬ IsLogical s.cfg a → outRead t a = outRead s a))
  ∧ (∀ s : State, s.palBuilt = false →
      ∃ t, exec .convert s = .next t ∧ Trapped s t .paletteNotBuilt 0#32 ∧ SameOut s t)

/-- The model's choice for R66 (log entry 8) and for an IN address that does not fit FAULT_INFO (log entry 9): after INDEX_RANGE
each logical cell of OUT is the free value of the draw whose number the counter held, the counter moves on, and FAULT_INFO of an
address of 2^32 or more is a free value. -/
def Obligations.IndexRangeLeavesDraws : Prop :=
  ∀ (s : State) (x y : Nat), s.palBuilt = true → x < s.cfg.width → y < s.cfg.height →
    badCell (inRead s (y * s.cfg.width + x)) = true →
    (∀ b, b < y * s.cfg.width + x → badCell (inRead s b) = false) →
      ∃ t, exec .convert s = .next t
        ∧ (∀ a, IsLogical s.cfg a → outRead t a = Config.freeOut s.draws a)
        ∧ t.draws = s.draws + 1 ∧ t.epoch = s.epoch
        ∧ (2 ^ 32 ≤ y * s.cfg.width + x → t.faultInfo = Config.freeWord (y * s.cfg.width + x))

/-- R65: the logical pixels after a CONVERT that completes depend only on IN and the configuration. -/
def Obligations.ConvertDependsOnlyOnFrame : Prop :=
  ∀ s₁ s₂ t₁ t₂ : State, s₁.Inv → s₂.Inv → s₁.cfg = s₂.cfg → (∀ a, a < inSize s₁.cfg → inRead s₁ a = inRead s₂ a) →
    s₁.palBuilt = true → s₂.palBuilt = true → FrameOk s₁ →
    exec .convert s₁ = .next t₁ → exec .convert s₂ = .next t₂ → t₁.logicalPixels = t₂.logicalPixels

/-- R65: a frame filled with the index i gives pack15(CT[i]) in every logical pixel and changes no other cell of OUT, and a second
CONVERT of it gives the same logical pixels. -/
def Obligations.UniformFrameConverts : Prop :=
  ∀ (s : State) (i : U9), s.palBuilt = true → (∀ a, a < inSize s.cfg → inRead s a = 0#7 ++ i) →
    ∃ t u, exec .convert s = .next t ∧ exec .convert t = .next u
      ∧ (∀ a, IsLogical s.cfg a → outRead t a = pack15 (ctRead s i.toNat))
      ∧ (∀ a, ¬ IsLogical s.cfg a → outRead t a = outRead s a) ∧ u.logicalPixels = t.logicalPixels

/-- R99: one video frame of the host on a built, unfaulted block in the invariant: writing a whole frame of palette indices into IN
and presenting CONVERT ends with no fault and one response (0, 0), every logical pixel of OUT is pack15 of Entry of its cell's
index, and the sink is handed OUT, the logical size and the row stride. -/
def Obligations.VideoFrameReachesTheSink : Prop :=
  ∀ (s : State) (cells : List U16), s.Inv → s.faulted = false → s.palBuilt = true → cells.length = inSize s.cfg →
    (∀ c ∈ cells, badCell c = false) →
      ∃ t, videoFrame cells s = .next t ∧ t.faulted = false ∧ Answered s t false 0#32
        ∧ (∀ x y, x < s.cfg.width → y < s.cfg.height → ∃ c, cells[y * s.cfg.width + x]? = some c
            ∧ outRead t (y * s.cfg.stride + x) = pack15 (entry s.cfg (BitVec.extractLsb' 0 9 c)))
        ∧ sinkFrame t = some ⟨t.out, s.cfg.width, s.cfg.height, s.cfg.stride⟩

/-! ### Audio Resampler Bridge -/

/-- R71: RS_RESET completes in every state: ACC 0, every one of the P_HIST_LEN entries of HIST 0, Q empty, RS_READY 1, response
(0, 0), nothing else changed; and a second RS_RESET leaves what the first left, but for its response. -/
def Obligations.RsResetClearsTheResampler : Prop :=
  encode .rsReset = 0x10000000#32 ∧ ∀ s : State, ∃ t, exec .rsReset s = .next t
    ∧ t.acc = 0#25 ∧ t.hist = List.replicate s.cfg.histLen 0#16 ∧ t.q = [] ∧ t.rsReady = true
    ∧ t.srcRate = s.srcRate ∧ t.dstRate = s.dstRate
    ∧ Answered s t false 0#32 ∧ SameTable s t ∧ SameRecord s t ∧ SameIn s t ∧ SameOut s t ∧ SameHost s t
    ∧ exec .rsReset t = .next { t with responses := t.responses ++ [⟨false, 0#32⟩] }

/-- R72: SET_SRC_RATE completes for a rate other than 0: SRC_RATE is the rate, RS_READY 0, even where the register held that rate
already; response (0, 0), ACC, HIST, Q and everything else unchanged. Rate 0 faults RATE_ZERO with the command word and changes
nothing. Its word is 0x11000000 with the rate in bits [23:0]. -/
def Obligations.SetSrcRateStoresAndUnreadies : Prop :=
  ∀ (s : State) (rate : U24),
    encode (.setSrcRate rate) = 0x11#8 ++ rate
    ∧ (rate ≠ 0#24 → ∃ t, exec (.setSrcRate rate) s = .next t
      ∧ t.srcRate = rate ∧ t.rsReady = false ∧ t.dstRate = s.dstRate ∧ t.acc = s.acc ∧ t.hist = s.hist ∧ t.q = s.q
      ∧ Answered s t false 0#32 ∧ SameTable s t ∧ SameRecord s t ∧ SameIn s t ∧ SameOut s t ∧ SameHost s t)
    ∧ (rate = 0#24 → ∃ t, exec (.setSrcRate rate) s = .next t ∧ Trapped s t .rateZero 0x11000000#32 ∧ SameOut s t)

/-- R73: SET_DST_RATE completes for a rate other than 0: DST_RATE is the rate, RS_READY 0, even where the register held that rate
already; response (0, 0), ACC, HIST, Q and everything else unchanged. Rate 0 faults RATE_ZERO with the command word and changes
nothing. Its word is 0x12000000 with the rate in bits [23:0]. -/
def Obligations.SetDstRateStoresAndUnreadies : Prop :=
  ∀ (s : State) (rate : U24),
    encode (.setDstRate rate) = 0x12#8 ++ rate
    ∧ (rate ≠ 0#24 → ∃ t, exec (.setDstRate rate) s = .next t
      ∧ t.dstRate = rate ∧ t.rsReady = false ∧ t.srcRate = s.srcRate ∧ t.acc = s.acc ∧ t.hist = s.hist ∧ t.q = s.q
      ∧ Answered s t false 0#32 ∧ SameTable s t ∧ SameRecord s t ∧ SameIn s t ∧ SameOut s t ∧ SameHost s t)
    ∧ (rate = 0#24 → ∃ t, exec (.setDstRate rate) s = .next t ∧ Trapped s t .rateZero 0x12000000#32 ∧ SameOut s t)

/-- R74, R75: GET_SRC_RATE and GET_DST_RATE complete in every state, answer the rate with DATA[31:24] = 0, and change nothing
else. -/
def Obligations.GetRatesAnswerTheRates : Prop :=
  encode .getSrcRate = 0x13000000#32 ∧ encode .getDstRate = 0x14000000#32 ∧ ∀ s : State,
    (∃ t, exec .getSrcRate s = .next t ∧ OnlyAnswered s t (0#8 ++ s.srcRate))
    ∧ (∃ t, exec .getDstRate s = .next t ∧ OnlyAnswered s t (0#8 ++ s.dstRate))

/-- R76: with n = floor((ACC + T) / R), FEED completes while RS_READY is 1 and n more pairs fit Q: HIST is shifted with the sample
at entry 0; ACC becomes ACC + T - n*R; the n pairs pushed at Q's tail carry, on both channels, the kernel's value at num =
ACC + T - R, ACC + T - 2R, and so on; the response is (0, 0); nothing else changes. FEED faults RS_NOT_READY while RS_READY is 0,
and QUEUE_OVERFLOW, with FAULT_INFO = Q.len, when its pairs do not fit; then no state of the resampler changes. -/
def Obligations.FeedRunsTheEmissionLoop : Prop :=
  ∀ (s : State) (smp : S16),
    encode (.feed smp) = 0x15#8 ++ 0#8 ++ smp
    ∧ (s.rsReady = true → s.srcRate ≠ 0#24 → s.hist ≠ [] →
        s.q.length + (s.acc.toNat + s.dstRate.toNat) / s.srcRate.toNat ≤ s.cfg.qcap →
        ∃ t, exec (.feed smp) s = .next t
          ∧ t.hist = smp :: s.hist.dropLast
          ∧ t.acc.toNat = (s.acc.toNat + s.dstRate.toNat) % s.srcRate.toNat
          ∧ t.q = s.q ++ (List.range ((s.acc.toNat + s.dstRate.toNat) / s.srcRate.toNat)).map (fun k =>
              let y := kernel s.cfg t.hist (s.acc.toNat + s.dstRate.toNat - (k + 1) * s.srcRate.toNat) s.srcRate.toNat
                s.dstRate.toNat
              ⟨y, y⟩)
          ∧ t.srcRate = s.srcRate ∧ t.dstRate = s.dstRate ∧ t.rsReady = true
          ∧ Answered s t false 0#32 ∧ SameTable s t ∧ SameRecord s t ∧ SameIn s t ∧ SameOut s t ∧ SameHost s t)
    ∧ (s.rsReady = false → ∃ t, exec (.feed smp) s = .next t ∧ Trapped s t .rsNotReady 0#32 ∧ SameOut s t)
    ∧ (s.rsReady = true → s.srcRate ≠ 0#24 → s.q.length ≤ s.cfg.qcap →
        s.cfg.qcap < s.q.length + (s.acc.toNat + s.dstRate.toNat) / s.srcRate.toNat →
        ∃ t, exec (.feed smp) s = .next t ∧ Trapped s t .queueOverflow (BitVec.ofNat 32 s.q.length) ∧ SameOut s t)

/-- FEED's one stop without a next state, in a READY state whose SRC_RATE holds the illegal value 0: R24 says no such value is ever
stored, and R76 then gives no pair count (log entry 10). -/
def Obligations.FeedStopsOnZeroSourceRate : Prop :=
  ∀ (s : State) (smp : S16), s.rsReady = true → s.srcRate = 0#24 → exec (.feed smp) s = .fault .sourceRateZero

/-- R79: from READY with ACC < R, a FEED that completes pushes floor(T/R) or floor(T/R) + 1 pairs, never more than ceil(T/R), and
leaves ACC < R. -/
def Obligations.FeedCountIsBounded : Prop :=
  ∀ (s t : State) (smp : S16), s.rsReady = true → s.acc.toNat < s.srcRate.toNat → s.faulted = false →
    exec (.feed smp) s = .next t → t.faulted = false →
      (t.q.length = s.q.length + s.dstRate.toNat / s.srcRate.toNat
        ∨ t.q.length = s.q.length + s.dstRate.toNat / s.srcRate.toNat + 1)
      ∧ t.q.length ≤ s.q.length + (s.dstRate.toNat + s.srcRate.toNat - 1) / s.srcRate.toNat
      ∧ t.q.length = s.q.length + (s.acc.toNat + s.dstRate.toNat) / s.srcRate.toNat
      ∧ t.acc.toNat < t.srcRate.toNat

/-- R80: RS_RESET and N FEEDs with no rate change leave exactly floor(N*T/R) pairs pushed and ACC = N*T - R*floor(N*T/R): when
Q holds them all, the run completes with all of them in Q; and whatever other commands stand between the FEEDs, POPs among them,
an unfaulted run has popped and still holds that many together. -/
def Obligations.FeedsConserveSamples : Prop :=
  (∀ (s : State) (smps : List S16), s.faulted = false → s.srcRate ≠ 0#24 →
    smps.length * s.dstRate.toNat / s.srcRate.toNat ≤ s.cfg.qcap →
      ∃ t, presentAll (.rsReset :: smps.map .feed) s = .next t ∧ t.faulted = false
        ∧ t.q.length = smps.length * s.dstRate.toNat / s.srcRate.toNat
        ∧ t.acc.toNat = smps.length * s.dstRate.toNat
            - s.srcRate.toNat * (smps.length * s.dstRate.toNat / s.srcRate.toNat))
  ∧ (∀ (s t : State) (is : List Instr), s.faulted = false → s.srcRate ≠ 0#24 → is.all keepsSession = true →
      presentAll (.rsReset :: is) s = .next t → t.faulted = false →
        is.countP isPop + t.q.length = is.countP isFeed * s.dstRate.toNat / s.srcRate.toNat
        ∧ t.acc.toNat = is.countP isFeed * s.dstRate.toNat
            - s.srcRate.toNat * (is.countP isFeed * s.dstRate.toNat / s.srcRate.toNat))

/-- R80, R100: with P_QCAP at least ceil(T/R), RS_RESET and then N audio ticks complete for every N and every N samples, without a
fault and with Q empty after them; tick by tick the host is handed pairs, floor(N*T/R) in all, and ACC = N*T - R*floor(N*T/R). -/
def Obligations.AudioTicksConserveSamples : Prop :=
  ∀ (s : State) (smps : List S16), s.faulted = false → s.srcRate ≠ 0#24 →
    s.dstRate.toNat ≤ s.cfg.qcap * s.srcRate.toNat →
      ∃ (u t : State) (ys : List (List S16)), present .rsReset s = .next u ∧ audioTicks smps u = .next t
        ∧ t.faulted = false ∧ t.rsReady = true ∧ t.q = []
        ∧ ys.length = smps.length ∧ t.responses = u.responses ++ ys.flatMap tickResponses
        ∧ (ys.map List.length).sum = smps.length * s.dstRate.toNat / s.srcRate.toNat
        ∧ t.acc.toNat = smps.length * s.dstRate.toNat
            - s.srcRate.toNat * (smps.length * s.dstRate.toNat / s.srcRate.toNat)

/-- R80: two runs that start with RS_RESET under the same configuration and rates and feed the same samples push the same
sequence of pairs, whatever the states before. -/
def Obligations.ResetMakesFeedsReproducible : Prop :=
  ∀ (s₁ s₂ t₁ t₂ : State) (smps : List S16), s₁.cfg = s₂.cfg → s₁.srcRate = s₂.srcRate → s₁.dstRate = s₂.dstRate →
    s₁.faulted = false → s₂.faulted = false →
    presentAll (.rsReset :: smps.map .feed) s₁ = .next t₁ → presentAll (.rsReset :: smps.map .feed) s₂ = .next t₂ →
      t₁.q = t₂.q ∧ t₁.acc = t₂.acc ∧ t₁.hist = t₂.hist

/-- R77: PENDING completes in every state whose Q fits P_QCAP, answers Q's length in DATA[15:0] with DATA[31:16] = 0, and changes
nothing else. -/
def Obligations.PendingCountsPairs : Prop :=
  encode .pending = 0x16000000#32 ∧ ∀ s : State, s.q.length ≤ s.cfg.qcap →
    ∃ t, exec .pending s = .next t ∧ OnlyAnswered s t (0#16 ++ BitVec.ofNat 16 s.q.length) ∧ s.q.length < 2 ^ 16

/-- R78: POP completes while Q is not empty: it removes the oldest pair and answers it, left in DATA[15:0] and right in
DATA[31:16], and changes nothing else; on an empty Q it faults QUEUE_EMPTY. -/
def Obligations.PopAnswersTheOldestPair : Prop :=
  encode .pop = 0x17000000#32 ∧ ∀ s : State,
    (∀ p rest, s.q = p :: rest →
      ∃ t r, exec .pop s = .next t ∧ t.responses = s.responses ++ [r] ∧ r.err = false
        ∧ BitVec.extractLsb' 0 16 r.data = p.left ∧ BitVec.extractLsb' 16 16 r.data = p.right ∧ t.q = rest
        ∧ t.srcRate = s.srcRate ∧ t.dstRate = s.dstRate ∧ t.rsReady = s.rsReady ∧ t.acc = s.acc ∧ t.hist = s.hist
        ∧ SameTable s t ∧ SameRecord s t ∧ SameIn s t ∧ SameOut s t ∧ SameHost s t)
    ∧ (s.q = [] → ∃ t, exec .pop s = .next t ∧ Trapped s t .queueEmpty 0#32 ∧ SameOut s t)

/-- R68: the resampler's two control states: power-on and a rate command that completes lead to NOT_READY, RS_RESET to READY, and
every other step leaves RS_READY as it is. -/
def Obligations.ResamplerControlStates : Prop :=
  ∀ (s t : State) (ev : HostEvent) (rest : List HostEvent), s.faulted = false → s.pending = ev :: rest → step s = .next t →
    (ev = .powerOn → t.rsReady = false)
    ∧ (ev = .command (encode .rsReset) → t.rsReady = true)
    ∧ (∀ rate : U24, rate ≠ 0#24 → ev = .command (encode (.setSrcRate rate)) ∨ ev = .command (encode (.setDstRate rate)) →
        t.rsReady = false)
    ∧ (ev ≠ .powerOn → ev ≠ .command (encode .rsReset) →
        (∀ rate : U24, rate ≠ 0#24 → ev ≠ .command (encode (.setSrcRate rate)) ∧ ev ≠ .command (encode (.setDstRate rate))) →
        t.rsReady = s.rsReady)

/-- R25: after every step that leaves RS_READY at 1, ACC < SRC_RATE; and in a FEED that runs from READY every value the emission
loop passes, from ACC + T on, is below SRC_RATE + DST_RATE, which is at most 2^25 - 2, so that ACC's 25 bits hold the loop's
last value whole. -/
def Obligations.AccumulatorNeverOverflows : Prop :=
  (∀ s t : State, s.Inv → step s = .next t → t.rsReady = true → t.acc.toNat < t.srcRate.toNat)
  ∧ (∀ (s t : State) (smp : S16), s.Inv → s.rsReady = true → exec (.feed smp) s = .next t →
      (∀ (value : Nat → S16) (rounds : Nat),
        (emit value s.srcRate.toNat rounds (s.acc.toNat + s.dstRate.toNat)).1 < s.srcRate.toNat + s.dstRate.toNat)
      ∧ s.srcRate.toNat + s.dstRate.toNat ≤ 2 ^ 25 - 2
      ∧ (t.faulted = false → t.acc.toNat = (feedEmission smp s).1)
      ∧ t.acc.toNat < t.srcRate.toNat)

/-- R55, R100: an audio tick of the host (FEED, then DRAIN) on a READY block with an empty Q, ACC < R and P_QCAP at least
ceil(T/R) ends with no fault and an empty Q; the responses are FEED's (0, 0), PENDING's count n, the n pairs in order, and, if
n is not 0, PENDING's 0; and the rates, the table, the fault record, IN and OUT are as before. -/
def Obligations.AudioTickDrains : Prop :=
  ∀ (s : State) (smp : S16), s.faulted = false → s.rsReady = true → s.q = [] → s.hist ≠ [] →
    s.acc.toNat < s.srcRate.toNat → s.dstRate.toNat ≤ s.cfg.qcap * s.srcRate.toNat →
      ∃ t ys, audioTick smp s = .next t ∧ t.faulted = false ∧ t.q = [] ∧ t.rsReady = true
        ∧ t.acc.toNat = (s.acc.toNat + s.dstRate.toNat) % s.srcRate.toNat ∧ t.hist = smp :: s.hist.dropLast
        ∧ t.srcRate = s.srcRate ∧ t.dstRate = s.dstRate
        ∧ SameTable s t ∧ SameRecord s t ∧ SameIn s t ∧ SameOut s t ∧ SameHost s t
        ∧ ys.length = (s.acc.toNat + s.dstRate.toNat) / s.srcRate.toNat
        ∧ t.responses = s.responses ++ tickResponses ys
        ∧ ys = (List.range ys.length).map (fun k =>
            kernel s.cfg t.hist (s.acc.toNat + s.dstRate.toNat - (k + 1) * s.srcRate.toNat) s.srcRate.toNat s.dstRate.toNat)

/-! ### Status -/

/-- R19, R81: READ_STATUS completes in every state, faulted or not, answers DATA[0] = PAL_BUILT, DATA[1] = RS_READY, DATA[2] =
FAULTED, DATA[15:8] = CAUSE and 0 elsewhere, and changes nothing else. -/
def Obligations.ReadStatusAnswersTheFields : Prop :=
  encode .readStatus = 0x30000000#32 ∧ ∀ s : State, ∃ t v, exec .readStatus s = .next t ∧ OnlyAnswered s t v
    ∧ v.getLsbD 0 = s.palBuilt ∧ v.getLsbD 1 = s.rsReady ∧ v.getLsbD 2 = s.faulted
    ∧ BitVec.extractLsb' 3 5 v = 0#5 ∧ BitVec.extractLsb' 8 8 v = causeCode s.cause ∧ BitVec.extractLsb' 16 16 v = 0#16

/-- R82: READ_FAULT_INFO completes in every state, answers FAULT_INFO and changes nothing else. In a state of the invariant with no
fault recorded that is 0. After a word that newly faults it is the information value of the recorded cause (R84; for a frame whose
addresses fit 32 bits), and whatever the host does next, but for the power-on event, READ_FAULT_INFO still answers it. -/
def Obligations.ReadFaultInfoAnswers : Prop :=
  encode .readFaultInfo = 0x31000000#32
  ∧ (∀ s : State,
    (∃ t, exec .readFaultInfo s = .next t ∧ OnlyAnswered s t s.faultInfo)
    ∧ (s.Inv → s.faulted = false → s.faultInfo = 0#32))
  ∧ (∀ (s t : State) (w : U32) (rest : List HostEvent), s.faulted = false → s.pending = .command w :: rest →
      step s = .next t → t.faulted = true →
        (inSize s.cfg ≤ 2 ^ 32 → FaultRow s w t.faultInfo t.cause)
        ∧ ∀ (evs : List HostEvent) (u : State), .powerOn ∉ evs → hostDoAll evs t = .next u →
            ∃ v, present .readFaultInfo u = .next v ∧ OnlyAnswered u v t.faultInfo)

/-- R84: the codes of the ten causes; no cause has another code, so 0x0A to 0xFF are never in CAUSE. -/
def Obligations.CauseCodes : Prop :=
  causeCode .none = 0x00#8 ∧ causeCode .illegalOpcode = 0x01#8 ∧ causeCode .reservedBits = 0x02#8
  ∧ causeCode .paletteNotBuilt = 0x03#8 ∧ causeCode .paletteRebuild = 0x04#8 ∧ causeCode .indexRange = 0x05#8
  ∧ causeCode .rsNotReady = 0x06#8 ∧ causeCode .rateZero = 0x07#8 ∧ causeCode .queueOverflow = 0x08#8
  ∧ causeCode .queueEmpty = 0x09#8 ∧ ∀ c : Cause, (causeCode c).toNat ≤ 9

/-! ### The machine -/

/-- The invariant of Safety.lean holds right after the power-on event. -/
def Obligations.ResetMeetsInv : Prop := State.reset.Inv

/-- Every step keeps the invariant: legal rates, HIST's and Q's lengths, ACC < SRC_RATE while READY, canonical memories inside
their ranges, the fault record, duplicated mono in Q, and CT[i] = Entry(i) once built (R22 to R27, R33, R38, R61, R76). -/
def Obligations.StepKeepsInv : Prop := ∀ s t : State, s.Inv → step s = .next t → t.Inv

/-- In the invariant no step stops with a fault, and a step is refused only for a host address outside its space (R38). -/
def Obligations.StepsStopOnlyOnHostAddresses : Prop :=
  ∀ s : State, s.Inv →
    (∃ t, step s = .next t)
    ∨ (∃ a v rest, s.pending = .writeIn a v :: rest ∧ inSize s.cfg ≤ a ∧ step s = .refused (.hostAddress .inFrame a))
    ∨ (∃ a rest, s.pending = .readIn a :: rest ∧ inSize s.cfg ≤ a ∧ step s = .refused (.hostAddress .inFrame a))
    ∨ (∃ a rest, s.pending = .readOut a :: rest ∧ outSize s.cfg ≤ a ∧ step s = .refused (.hostAddress .outFrame a))

/-- R17: the state right after the power-on event, the elements the table gives a value. -/
def Obligations.ResetValues : Prop :=
  State.reset.palBuilt = false ∧ State.reset.rsReady = false ∧ State.reset.faulted = false ∧ State.reset.cause = .none
    ∧ State.reset.faultInfo = 0#32 ∧ State.reset.srcRate = State.reset.cfg.srcRate0
    ∧ State.reset.dstRate = State.reset.cfg.dstRate0 ∧ State.reset.q = [] ∧ statusWord State.reset = 0#32

/-- R96: the power-on event gives every element of R17's table its power-on value, the unspecified ones the values of a draw no
earlier event took (the counter then moves on), and leaves IN and the configuration as they are. -/
def Obligations.PowerOnEvent : Prop :=
  ∀ (s : State) (rest : List HostEvent), s.pending = .powerOn :: rest →
    ∃ t, step s = .next t ∧ statusWord t = 0#32 ∧ t.palBuilt = false ∧ t.rsReady = false ∧ t.faulted = false
      ∧ t.cause = .none ∧ t.faultInfo = 0#32 ∧ t.srcRate = s.cfg.srcRate0 ∧ t.dstRate = s.cfg.dstRate0 ∧ t.q = []
      ∧ (∀ i, ctRead t i = Config.freeCt s.draws i) ∧ t.acc = Config.freeAcc s.draws
      ∧ t.hist.length = s.cfg.histLen ∧ (∀ k, k < s.cfg.histLen → t.hist[k]? = some (Config.freeHist s.draws k))
      ∧ (∀ a, outRead t a = Config.freeOut s.draws a) ∧ t.draws = s.draws + 1
      ∧ SameIn s t ∧ t.cfg = s.cfg ∧ t.pending = rest ∧ t.responses = s.responses ∧ t.hostReads = s.hostReads

/-- R17: no rule reads an unspecified element before a write sets it: two states that differ only in unspecified elements take
the same step, with the same response, to states that again differ only so. -/
def Obligations.UnspecifiedStateIsNeverRead : Prop :=
  ∀ s t : State, s.Agree t →
    (∀ s', step s = .next s' → ∃ t', step t = .next t' ∧ s'.Agree t')
    ∧ (∀ f, step s = .fault f → step t = .fault f) ∧ (∀ r, step s = .refused r → step t = .refused r)

/-- R32: no step changes the configuration. -/
def Obligations.ConfigurationIsFixed : Prop := ∀ s t : State, step s = .next t → t.cfg = s.cfg

/-- R28, R29, R45: a command leaves IN as it is, every other action of the host but the power-on event leaves OUT as it is, and
the power-on event leaves IN as it is (R96). -/
def Obligations.EachMemoryHasOneWriter : Prop :=
  ∀ (s t : State) (ev : HostEvent) (rest : List HostEvent), s.pending = ev :: rest → step s = .next t →
    (∀ w, ev = .command w → SameIn s t) ∧ (ev = .powerOn → SameIn s t)
    ∧ ((∀ w, ev ≠ .command w) → ev ≠ .powerOn → SameOut s t)

/-- R33, R38: a host write inside IN is read back and changes no other cell; host reads inside a space answer the cell and change
nothing; outside the space each is refused. -/
def Obligations.HostAccesses : Prop :=
  ∀ (s : State) (a : Nat) (v : U16),
    (a < inSize s.cfg → ∃ t, hostDo (.writeIn a v) s = .next t ∧ inRead t a = v ∧ (∀ b, b ≠ a → inRead t b = inRead s b)
      ∧ SameTable s t ∧ SameResampler s t ∧ SameRecord s t ∧ SameOut s t ∧ SameHost s t ∧ t.responses = s.responses)
    ∧ (a < inSize s.cfg → hostDo (.readIn a) s = .next { s with hostReads := s.hostReads ++ [inRead s a] })
    ∧ (a < outSize s.cfg → hostDo (.readOut a) s = .next { s with hostReads := s.hostReads ++ [outRead s a] })
    ∧ (inSize s.cfg ≤ a → hostDo (.writeIn a v) s = .refused (.hostAddress .inFrame a)
        ∧ hostDo (.readIn a) s = .refused (.hostAddress .inFrame a))
    ∧ (outSize s.cfg ≤ a → hostDo (.readOut a) s = .refused (.hostAddress .outFrame a))

/-- R95: with nothing presented the block holds its state. -/
def Obligations.IdleBlockHoldsState : Prop := ∀ s : State, s.pending = [] → step s = .next s

/-- R39: among the commands that read, only POP changes state: PENDING, GET_SRC_RATE, GET_DST_RATE, LUT_READ on a built table,
READ_STATUS and READ_FAULT_INFO change nothing but the response port. -/
def Obligations.ReadsHaveNoSideEffect : Prop :=
  ∀ (s t : State) (i : Instr),
    (i = .pending ∨ i = .getSrcRate ∨ i = .getDstRate ∨ (s.palBuilt = true ∧ ∃ idx, i = .lutRead idx) ∨ i = .readStatus
      ∨ i = .readFaultInfo) → exec i s = .next t → ∃ v, t = { s with responses := s.responses ++ [⟨false, v⟩] }

/-- R97: after the boot sequence, with or without rates, from a block that was just powered on, PAL_BUILT and RS_READY are 1, no
fault is recorded, and the rates are the ones asked for. -/
def Obligations.BootSequenceReadies : Prop :=
  ∀ (s : State) (rates : Option (U24 × U24)), s.faulted = false → s.palBuilt = false →
    (∀ p ∈ rates, p.1 ≠ 0#24 ∧ p.2 ≠ 0#24) →
      ∃ t, presentAll (bootSequence rates) s = .next t ∧ t.faulted = false ∧ t.palBuilt = true ∧ t.rsReady = true
        ∧ t.srcRate = (rates.map Prod.fst).getD s.srcRate ∧ t.dstRate = (rates.map Prod.snd).getD s.dstRate
        ∧ t.acc = 0#25 ∧ t.q = [] ∧ ∀ i : U9, ctRead t i.toNat = entry s.cfg i

/-- R37, R78: in a host's little-endian byte view of the DATA that POP answers for the oldest pair, bytes 0 and 1 are the left
channel's bytes and bytes 2 and 3 the right channel's. -/
def Obligations.PopWordInterleavesChannels : Prop :=
  ∀ (s : State) (p : Pair) (rest : List Pair), s.q = p :: rest →
    ∃ t r, exec .pop s = .next t ∧ t.responses = s.responses ++ [r] ∧ r.err = false
      ∧ wordByte r.data 0 = cellByte p.left 0 ∧ wordByte r.data 1 = cellByte p.left 1
      ∧ wordByte r.data 2 = cellByte p.right 0 ∧ wordByte r.data 3 = cellByte p.right 1

/-- R54, R55: the rule's assembly examples, and the expansion of SET_RATES. -/
def Obligations.AssemblerExamples : Prop :=
  assemble "FEED -1".toList = some [0x1500FFFF#32] ∧ assemble "LUT_READ 0x41".toList = some [0x03000041#32]
    ∧ assemble "SET_DST_RATE 48000 ; audio".toList = some [0x1200BB80#32]
    ∧ assemble "SET_RATES 3, 4".toList = some [0x11000003#32, 0x12000004#32, 0x10000000#32]
    ∧ assemble "LUT_READ 512".toList = none ∧ assemble "FEED 32768".toList = none
end

