-- ==== Sys2Proof/Laws/Bits.lean ====
section
/-! SUPPORT. The bits of concatenated words, at the widths the model uses: zero extension (R10), POP's word (R78), a colour's
channels (R18), a frame cell (R63) and the STATUS word (R19). -/

namespace Sys2Proof.Machine

/-- A bit of a concatenation whose width is written as one number. -/
theorem getLsbD_concat {n m k : Nat} (h : n + m = k) (x : BitVec n) (y : BitVec m) (j : Nat) :
    ((x ++ y).cast h).getLsbD j = if j < m then y.getLsbD j else x.getLsbD (j - m) := by
  rw [BitVec.getLsbD_cast, BitVec.getLsbD_append]

/-- The low field of a concatenation. -/
theorem extract_low {n m k : Nat} (h : n + m = k) (x : BitVec n) (y : BitVec m) :
    BitVec.extractLsb' 0 m ((x ++ y).cast h) = y := by
  apply BitVec.eq_of_getLsbD_eq
  intro j hj
  rw [BitVec.getLsbD_extractLsb', getLsbD_concat]
  simp [hj]

/-- A field of the low part of a concatenation. -/
theorem extract_of_low {n m k a l : Nat} (h : n + m = k) (x : BitVec n) (y : BitVec m) (ha : a + l ≤ m) :
    BitVec.extractLsb' a l ((x ++ y).cast h) = BitVec.extractLsb' a l y := by
  apply BitVec.eq_of_getLsbD_eq
  intro j hj
  rw [BitVec.getLsbD_extractLsb', BitVec.getLsbD_extractLsb', getLsbD_concat, if_pos (by omega)]

/-- A field of the high part of a concatenation. -/
theorem extract_of_high {n m k a l : Nat} (h : n + m = k) (x : BitVec n) (y : BitVec m) (ha : m ≤ a) :
    BitVec.extractLsb' a l ((x ++ y).cast h) = BitVec.extractLsb' (a - m) l x := by
  apply BitVec.eq_of_getLsbD_eq
  intro j hj
  rw [BitVec.getLsbD_extractLsb', BitVec.getLsbD_extractLsb', getLsbD_concat, if_neg (by omega)]
  congr 2
  omega

/-- Zero extension puts zeros above (R10). -/
theorem zext32_eq_zeros {n m : Nat} (h : n + m = 32) (v : BitVec m) : zext32 v = (0#n ++ v).cast h := by
  apply BitVec.eq_of_getLsbD_eq
  intro j hj
  rw [getLsbD_concat, zext32, BitVec.getLsbD_setWidth]
  split
  · simp [hj]
  · rw [BitVec.getLsbD_of_ge v j (by omega)]; simp

/-- POP's word: the left channel low, the right channel high (R78). -/
theorem pop_word_fields (l r : S16) :
    BitVec.extractLsb' 0 16 (r ++ l) = l ∧ BitVec.extractLsb' 16 16 (r ++ l) = r := by
  refine ⟨extract_low rfl r l, (extract_of_high (a := 16) (l := 16) rfl r l le_rfl).trans ?_⟩
  simp

/-- The channels of a colour made of three (R18, R57). -/
theorem channels_of_color (x y z : U8) :
    red (x ++ y ++ z) = x ∧ green (x ++ y ++ z) = y ∧ blue (x ++ y ++ z) = z := by
  have hx : BitVec.extractLsb' 8 8 (x ++ y) = x := by
    refine (extract_of_high (a := 8) (l := 8) rfl x y le_rfl).trans ?_
    simp
  refine ⟨(extract_of_high (a := 16) (l := 8) rfl (x ++ y) z (by omega)).trans hx, ?_, extract_low rfl (x ++ y) z⟩
  exact (extract_of_high (a := 8) (l := 8) rfl (x ++ y) z (by omega)).trans (extract_low rfl x y)

/-- A cell made of an index and zeros is a palette index, and that index is its own (R63). -/
theorem cell_of_index (i : U9) : badCell (0#7 ++ i) = false ∧ cellIndex (0#7 ++ i) = i := by
  have h : BitVec.extractLsb' 9 7 (0#7 ++ i) = 0#7 := by
    refine (extract_of_high (a := 9) (l := 7) rfl 0#7 i le_rfl).trans ?_
    simp
  exact ⟨by rw [badCell, h]; rfl, extract_low rfl 0#7 i⟩

/-- The fields of the STATUS word (R19), by the finitely many values of the four parts. -/
theorem statusWord_fields (s : State) :
    (statusWord s).getLsbD 0 = s.palBuilt ∧ (statusWord s).getLsbD 1 = s.rsReady ∧ (statusWord s).getLsbD 2 = s.faulted
      ∧ BitVec.extractLsb' 3 5 (statusWord s) = 0#5 ∧ BitVec.extractLsb' 8 8 (statusWord s) = causeCode s.cause
      ∧ BitVec.extractLsb' 16 16 (statusWord s) = 0#16 := by
  unfold statusWord
  generalize s.cause = c
  generalize s.palBuilt = p
  generalize s.rsReady = r
  generalize s.faulted = f
  cases c <;> revert p r f <;> decide

end Sys2Proof.Machine
end

