-- ==== Sys2Proof/Laws/Config.lean ====
section
/-! SUPPORT. What a well-formed configuration gives (spec/00_scope.md R7), and the address maps inside the spaces' ranges
(spec/20_memory.md R38). -/

namespace Sys2Proof.Machine

/-- The constraints of R7, one by one. -/
theorem cfg_constraints (c : Cfg) :
    1 ≤ c.width ∧ 1 ≤ c.height ∧ c.width ≤ c.stride ∧ c.height ≤ c.outRows ∧ c.base.length = 64 ∧ 1 ≤ c.fden
      ∧ c.srcRate0 ≠ 0#24 ∧ c.dstRate0 ≠ 0#24 ∧ 1 ≤ c.histLen ∧ 1 ≤ c.qcap ∧ c.qcap ≤ 65535 := by
  have h := c.ok
  simp only [Params.wellFormed, Params.frameOk, Params.paletteOk, Params.resamplerOk, Bool.and_eq_true,
    decide_eq_true_eq] at h
  tauto

/-- Entry 0 of every factor table is the denominator (R7, D10). -/
theorem cfg_factor_zero (c : Cfg) :
    c.fnumR.getD 0 0 = c.fden ∧ c.fnumG.getD 0 0 = c.fden ∧ c.fnumB.getD 0 0 = c.fden := by
  have h := c.ok
  simp only [Params.wellFormed, Params.paletteOk, Params.tableOk, Bool.and_eq_true, decide_eq_true_eq] at h
  tauto

@[simp] theorem mem_pixels (c : Cfg) (x y : Nat) : (x, y) ∈ pixels c ↔ x < c.width ∧ y < c.height := by
  simp [pixels, and_comm]

/-- Row-major addresses with rows of `n`: different pixels, different addresses. -/
theorem rowMajor_inj {n x y x' y' : Nat} (hx : x < n) (hx' : x' < n) (h : y * n + x = y' * n + x') :
    x = x' ∧ y = y' := by
  have hm : (y * n + x) % n = (y' * n + x') % n := by rw [h]
  rw [Nat.add_comm, Nat.add_mul_mod_self_right, Nat.mod_eq_of_lt hx, Nat.add_comm, Nat.add_mul_mod_self_right,
    Nat.mod_eq_of_lt hx'] at hm
  subst hm
  have : y * n = y' * n := by omega
  exact ⟨rfl, Nat.eq_of_mul_eq_mul_right (by omega) this⟩

/-- Row-major addresses stay below rows times columns. -/
theorem rowMajor_lt {n m x y : Nat} (hx : x < n) (hy : y < m) : y * n + x < m * n := by
  calc y * n + x < y * n + n := by omega
    _ = (y + 1) * n := by ring
    _ ≤ m * n := Nat.mul_le_mul_right n hy

/-- CONVERT's reads stay inside IN (R38). -/
theorem inAddr_lt (c : Cfg) {x y : Nat} (hx : x < c.width) (hy : y < c.height) : inAddr c x y < inSize c := by
  rw [inSize, Nat.mul_comm]; exact rowMajor_lt hx hy

/-- CONVERT's writes stay inside OUT (R38). -/
theorem outAddr_lt (c : Cfg) {x y : Nat} (hx : x < c.width) (hy : y < c.height) : outAddr c x y < outSize c := by
  obtain ⟨-, -, hs, hr, -⟩ := cfg_constraints c
  exact rowMajor_lt (by omega) (by omega)

/-- Different logical pixels have different OUT addresses. -/
theorem outAddr_inj (c : Cfg) {x y x' y' : Nat} (hx : x < c.width) (hx' : x' < c.width)
    (h : outAddr c x y = outAddr c x' y') : x = x' ∧ y = y' := by
  obtain ⟨-, -, hs, -⟩ := cfg_constraints c
  exact rowMajor_inj (by omega) (by omega) h

end Sys2Proof.Machine
end

