-- ==== Sys2Proof/Laws/State.lean ====
section
/-! SUPPORT. What each named update of the state makes of each of its fields, so that no later proof unfolds a record update. -/

namespace Sys2Proof.Machine

variable (s : State)

/-! ### State.answer -/

@[simp] theorem State.answer_cfg (err : Bool) (v : U32) : (s.answer err v).cfg = s.cfg := rfl
@[simp] theorem State.answer_ct (err : Bool) (v : U32) : (s.answer err v).ct = s.ct := rfl
@[simp] theorem State.answer_palBuilt (err : Bool) (v : U32) : (s.answer err v).palBuilt = s.palBuilt := rfl
@[simp] theorem State.answer_rsReady (err : Bool) (v : U32) : (s.answer err v).rsReady = s.rsReady := rfl
@[simp] theorem State.answer_faulted (err : Bool) (v : U32) : (s.answer err v).faulted = s.faulted := rfl
@[simp] theorem State.answer_cause (err : Bool) (v : U32) : (s.answer err v).cause = s.cause := rfl
@[simp] theorem State.answer_faultInfo (err : Bool) (v : U32) : (s.answer err v).faultInfo = s.faultInfo := rfl
@[simp] theorem State.answer_srcRate (err : Bool) (v : U32) : (s.answer err v).srcRate = s.srcRate := rfl
@[simp] theorem State.answer_dstRate (err : Bool) (v : U32) : (s.answer err v).dstRate = s.dstRate := rfl
@[simp] theorem State.answer_acc (err : Bool) (v : U32) : (s.answer err v).acc = s.acc := rfl
@[simp] theorem State.answer_hist (err : Bool) (v : U32) : (s.answer err v).hist = s.hist := rfl
@[simp] theorem State.answer_q (err : Bool) (v : U32) : (s.answer err v).q = s.q := rfl
@[simp] theorem State.answer_out (err : Bool) (v : U32) : (s.answer err v).out = s.out := rfl
@[simp] theorem State.answer_inMem (err : Bool) (v : U32) : (s.answer err v).inMem = s.inMem := rfl
@[simp] theorem State.answer_pending (err : Bool) (v : U32) : (s.answer err v).pending = s.pending := rfl
@[simp] theorem State.answer_responses (err : Bool) (v : U32) : (s.answer err v).responses = s.responses ++ [⟨err, v⟩] := rfl
@[simp] theorem State.answer_hostReads (err : Bool) (v : U32) : (s.answer err v).hostReads = s.hostReads := rfl
@[simp] theorem State.answer_draws (err : Bool) (v : U32) : (s.answer err v).draws = s.draws := rfl
@[simp] theorem State.answer_epoch (err : Bool) (v : U32) : (s.answer err v).epoch = s.epoch := rfl

/-! ### State.respond -/

@[simp] theorem State.respond_cfg (v : U32) : (s.respond v).cfg = s.cfg := rfl
@[simp] theorem State.respond_ct (v : U32) : (s.respond v).ct = s.ct := rfl
@[simp] theorem State.respond_palBuilt (v : U32) : (s.respond v).palBuilt = s.palBuilt := rfl
@[simp] theorem State.respond_rsReady (v : U32) : (s.respond v).rsReady = s.rsReady := rfl
@[simp] theorem State.respond_faulted (v : U32) : (s.respond v).faulted = s.faulted := rfl
@[simp] theorem State.respond_cause (v : U32) : (s.respond v).cause = s.cause := rfl
@[simp] theorem State.respond_faultInfo (v : U32) : (s.respond v).faultInfo = s.faultInfo := rfl
@[simp] theorem State.respond_srcRate (v : U32) : (s.respond v).srcRate = s.srcRate := rfl
@[simp] theorem State.respond_dstRate (v : U32) : (s.respond v).dstRate = s.dstRate := rfl
@[simp] theorem State.respond_acc (v : U32) : (s.respond v).acc = s.acc := rfl
@[simp] theorem State.respond_hist (v : U32) : (s.respond v).hist = s.hist := rfl
@[simp] theorem State.respond_q (v : U32) : (s.respond v).q = s.q := rfl
@[simp] theorem State.respond_out (v : U32) : (s.respond v).out = s.out := rfl
@[simp] theorem State.respond_inMem (v : U32) : (s.respond v).inMem = s.inMem := rfl
@[simp] theorem State.respond_pending (v : U32) : (s.respond v).pending = s.pending := rfl
@[simp] theorem State.respond_responses (v : U32) : (s.respond v).responses = s.responses ++ [⟨false, v⟩] := rfl
@[simp] theorem State.respond_hostReads (v : U32) : (s.respond v).hostReads = s.hostReads := rfl
@[simp] theorem State.respond_draws (v : U32) : (s.respond v).draws = s.draws := rfl
@[simp] theorem State.respond_epoch (v : U32) : (s.respond v).epoch = s.epoch := rfl

/-! ### State.raiseFault -/

@[simp] theorem State.raiseFault_cfg (c : Cause) (info : U32) : (s.raiseFault c info).cfg = s.cfg := rfl
@[simp] theorem State.raiseFault_ct (c : Cause) (info : U32) : (s.raiseFault c info).ct = s.ct := rfl
@[simp] theorem State.raiseFault_palBuilt (c : Cause) (info : U32) : (s.raiseFault c info).palBuilt = s.palBuilt := rfl
@[simp] theorem State.raiseFault_rsReady (c : Cause) (info : U32) : (s.raiseFault c info).rsReady = s.rsReady := rfl
@[simp] theorem State.raiseFault_faulted (c : Cause) (info : U32) : (s.raiseFault c info).faulted = true := rfl
@[simp] theorem State.raiseFault_cause (c : Cause) (info : U32) : (s.raiseFault c info).cause = c := rfl
@[simp] theorem State.raiseFault_faultInfo (c : Cause) (info : U32) : (s.raiseFault c info).faultInfo = info := rfl
@[simp] theorem State.raiseFault_srcRate (c : Cause) (info : U32) : (s.raiseFault c info).srcRate = s.srcRate := rfl
@[simp] theorem State.raiseFault_dstRate (c : Cause) (info : U32) : (s.raiseFault c info).dstRate = s.dstRate := rfl
@[simp] theorem State.raiseFault_acc (c : Cause) (info : U32) : (s.raiseFault c info).acc = s.acc := rfl
@[simp] theorem State.raiseFault_hist (c : Cause) (info : U32) : (s.raiseFault c info).hist = s.hist := rfl
@[simp] theorem State.raiseFault_q (c : Cause) (info : U32) : (s.raiseFault c info).q = s.q := rfl
@[simp] theorem State.raiseFault_out (c : Cause) (info : U32) : (s.raiseFault c info).out = s.out := rfl
@[simp] theorem State.raiseFault_inMem (c : Cause) (info : U32) : (s.raiseFault c info).inMem = s.inMem := rfl
@[simp] theorem State.raiseFault_pending (c : Cause) (info : U32) : (s.raiseFault c info).pending = s.pending := rfl
@[simp] theorem State.raiseFault_responses (c : Cause) (info : U32) : (s.raiseFault c info).responses = s.responses ++ [⟨true, 0#32⟩] := rfl
@[simp] theorem State.raiseFault_hostReads (c : Cause) (info : U32) : (s.raiseFault c info).hostReads = s.hostReads := rfl
@[simp] theorem State.raiseFault_draws (c : Cause) (info : U32) : (s.raiseFault c info).draws = s.draws := rfl
@[simp] theorem State.raiseFault_epoch (c : Cause) (info : U32) : (s.raiseFault c info).epoch = s.epoch := rfl

/-! ### State.refuseAfterFault -/

@[simp] theorem State.refuseAfterFault_cfg : (s.refuseAfterFault).cfg = s.cfg := rfl
@[simp] theorem State.refuseAfterFault_ct : (s.refuseAfterFault).ct = s.ct := rfl
@[simp] theorem State.refuseAfterFault_palBuilt : (s.refuseAfterFault).palBuilt = s.palBuilt := rfl
@[simp] theorem State.refuseAfterFault_rsReady : (s.refuseAfterFault).rsReady = s.rsReady := rfl
@[simp] theorem State.refuseAfterFault_faulted : (s.refuseAfterFault).faulted = s.faulted := rfl
@[simp] theorem State.refuseAfterFault_cause : (s.refuseAfterFault).cause = s.cause := rfl
@[simp] theorem State.refuseAfterFault_faultInfo : (s.refuseAfterFault).faultInfo = s.faultInfo := rfl
@[simp] theorem State.refuseAfterFault_srcRate : (s.refuseAfterFault).srcRate = s.srcRate := rfl
@[simp] theorem State.refuseAfterFault_dstRate : (s.refuseAfterFault).dstRate = s.dstRate := rfl
@[simp] theorem State.refuseAfterFault_acc : (s.refuseAfterFault).acc = s.acc := rfl
@[simp] theorem State.refuseAfterFault_hist : (s.refuseAfterFault).hist = s.hist := rfl
@[simp] theorem State.refuseAfterFault_q : (s.refuseAfterFault).q = s.q := rfl
@[simp] theorem State.refuseAfterFault_out : (s.refuseAfterFault).out = s.out := rfl
@[simp] theorem State.refuseAfterFault_inMem : (s.refuseAfterFault).inMem = s.inMem := rfl
@[simp] theorem State.refuseAfterFault_pending : (s.refuseAfterFault).pending = s.pending := rfl
@[simp] theorem State.refuseAfterFault_responses : (s.refuseAfterFault).responses = s.responses ++ [⟨true, 0#32⟩] := rfl
@[simp] theorem State.refuseAfterFault_hostReads : (s.refuseAfterFault).hostReads = s.hostReads := rfl
@[simp] theorem State.refuseAfterFault_draws : (s.refuseAfterFault).draws = s.draws := rfl
@[simp] theorem State.refuseAfterFault_epoch : (s.refuseAfterFault).epoch = s.epoch := rfl

/-! ### State.scrambleLogical -/

@[simp] theorem State.scrambleLogical_cfg : (s.scrambleLogical).cfg = s.cfg := rfl
@[simp] theorem State.scrambleLogical_ct : (s.scrambleLogical).ct = s.ct := rfl
@[simp] theorem State.scrambleLogical_palBuilt : (s.scrambleLogical).palBuilt = s.palBuilt := rfl
@[simp] theorem State.scrambleLogical_rsReady : (s.scrambleLogical).rsReady = s.rsReady := rfl
@[simp] theorem State.scrambleLogical_faulted : (s.scrambleLogical).faulted = s.faulted := rfl
@[simp] theorem State.scrambleLogical_cause : (s.scrambleLogical).cause = s.cause := rfl
@[simp] theorem State.scrambleLogical_faultInfo : (s.scrambleLogical).faultInfo = s.faultInfo := rfl
@[simp] theorem State.scrambleLogical_srcRate : (s.scrambleLogical).srcRate = s.srcRate := rfl
@[simp] theorem State.scrambleLogical_dstRate : (s.scrambleLogical).dstRate = s.dstRate := rfl
@[simp] theorem State.scrambleLogical_acc : (s.scrambleLogical).acc = s.acc := rfl
@[simp] theorem State.scrambleLogical_hist : (s.scrambleLogical).hist = s.hist := rfl
@[simp] theorem State.scrambleLogical_q : (s.scrambleLogical).q = s.q := rfl
@[simp] theorem State.scrambleLogical_out : (s.scrambleLogical).out = s.out.writeAll ((logicalAddrs s.cfg).map (fun a => (a, Config.freeOut s.draws a))) := rfl
@[simp] theorem State.scrambleLogical_inMem : (s.scrambleLogical).inMem = s.inMem := rfl
@[simp] theorem State.scrambleLogical_pending : (s.scrambleLogical).pending = s.pending := rfl
@[simp] theorem State.scrambleLogical_responses : (s.scrambleLogical).responses = s.responses := rfl
@[simp] theorem State.scrambleLogical_hostReads : (s.scrambleLogical).hostReads = s.hostReads := rfl
@[simp] theorem State.scrambleLogical_draws : (s.scrambleLogical).draws = s.draws + 1 := rfl
@[simp] theorem State.scrambleLogical_epoch : (s.scrambleLogical).epoch = s.epoch := rfl

/-! ### State.powerOn -/

@[simp] theorem State.powerOn_cfg : (s.powerOn).cfg = s.cfg := rfl
@[simp] theorem State.powerOn_ct : (s.powerOn).ct = [] := rfl
@[simp] theorem State.powerOn_palBuilt : (s.powerOn).palBuilt = false := rfl
@[simp] theorem State.powerOn_rsReady : (s.powerOn).rsReady = false := rfl
@[simp] theorem State.powerOn_faulted : (s.powerOn).faulted = false := rfl
@[simp] theorem State.powerOn_cause : (s.powerOn).cause = .none := rfl
@[simp] theorem State.powerOn_faultInfo : (s.powerOn).faultInfo = 0#32 := rfl
@[simp] theorem State.powerOn_srcRate : (s.powerOn).srcRate = s.cfg.srcRate0 := rfl
@[simp] theorem State.powerOn_dstRate : (s.powerOn).dstRate = s.cfg.dstRate0 := rfl
@[simp] theorem State.powerOn_acc : (s.powerOn).acc = Config.freeAcc s.draws := rfl
@[simp] theorem State.powerOn_hist : (s.powerOn).hist = (List.range s.cfg.histLen).map (Config.freeHist s.draws) := rfl
@[simp] theorem State.powerOn_q : (s.powerOn).q = [] := rfl
@[simp] theorem State.powerOn_out : (s.powerOn).out = [] := rfl
@[simp] theorem State.powerOn_inMem : (s.powerOn).inMem = s.inMem := rfl
@[simp] theorem State.powerOn_pending : (s.powerOn).pending = s.pending := rfl
@[simp] theorem State.powerOn_responses : (s.powerOn).responses = s.responses := rfl
@[simp] theorem State.powerOn_hostReads : (s.powerOn).hostReads = s.hostReads := rfl
@[simp] theorem State.powerOn_draws : (s.powerOn).draws = s.draws + 1 := rfl
@[simp] theorem State.powerOn_epoch : (s.powerOn).epoch = s.draws := rfl

end Sys2Proof.Machine
end

