-- ==== Sys2Proof/Laws/Exec.lean ====
section
/-! SUPPORT. The cases of each command's meaning, one equation each: later proofs rewrite with these and do not unfold a meaning. -/

namespace Sys2Proof.Machine

variable {s : State}

theorem exec_build_new (h : s.palBuilt = false) :
    exec .build s = .next (State.respond { s with ct := s.ct.writeAll (tableWrites s.cfg), palBuilt := true } 0#32) := by
  simp [exec, execBuild, h]

theorem exec_build_again (h : s.palBuilt = true) : exec .build s = .next (s.raiseFault .paletteRebuild 0#32) := by
  simp [exec, execBuild, h]

theorem exec_lutRead_built (idx : U9) (h : s.palBuilt = true) :
    exec (.lutRead idx) s = .next (s.respond (zext32 (ctRead s idx.toNat))) := by
  simp [exec, execLutRead, indexValue, h]

theorem exec_lutRead_unbuilt (idx : U9) (h : s.palBuilt = false) :
    exec (.lutRead idx) s = .next (s.raiseFault .paletteNotBuilt (zext32 idx)) := by
  simp [exec, execLutRead, h]

theorem exec_convert_unbuilt (h : s.palBuilt = false) :
    exec .convert s = .next (s.raiseFault .paletteNotBuilt 0#32) := by
  simp [exec, execConvert, h]

theorem exec_convert_bad {a : Nat} (h : s.palBuilt = true) (hb : firstBad s = some a) :
    exec .convert s = .next (s.scrambleLogical.raiseFault .indexRange (zextNat a)) := by
  simp [exec, execConvert, h, hb]

theorem exec_convert_good (h : s.palBuilt = true) (hb : firstBad s = none) :
    exec .convert s
      = .next (State.respond { s with out := s.out.writeAll ((pixels s.cfg).map (pixelWrite s)) } 0#32) := by
  simp [exec, execConvert, h, hb]

theorem exec_rsReset :
    exec .rsReset s = .next (State.respond
      { s with acc := 0#25, hist := List.replicate s.cfg.histLen 0#16, q := [], rsReady := true } 0#32) := rfl

theorem rateValue_ne {rate : U24} (h : rate ≠ 0#24) : rateValue rate ≠ 0 :=
  fun h' => h (BitVec.eq_of_toNat_eq (by simpa [rateValue] using h'))

theorem exec_setSrcRate {rate : U24} (h : rate ≠ 0#24) :
    exec (.setSrcRate rate) s = .next (State.respond { s with srcRate := rate, rsReady := false } 0#32) := by
  simp [exec, execSetSrcRate, rateValue_ne h]

theorem exec_setSrcRate_zero : exec (.setSrcRate 0#24) s = .next (s.raiseFault .rateZero 0x11000000#32) := rfl

theorem exec_setDstRate {rate : U24} (h : rate ≠ 0#24) :
    exec (.setDstRate rate) s = .next (State.respond { s with dstRate := rate, rsReady := false } 0#32) := by
  simp [exec, execSetDstRate, rateValue_ne h]

theorem exec_setDstRate_zero : exec (.setDstRate 0#24) s = .next (s.raiseFault .rateZero 0x12000000#32) := rfl

theorem exec_getSrcRate : exec .getSrcRate s = .next (s.respond (zext32 s.srcRate)) := rfl

theorem exec_getDstRate : exec .getDstRate s = .next (s.respond (zext32 s.dstRate)) := rfl

theorem exec_feed_notReady (smp : S16) (h : s.rsReady = false) :
    exec (.feed smp) s = .next (s.raiseFault .rsNotReady 0#32) := by
  simp [exec, execFeed, h]

theorem exec_feed_zeroRate (smp : S16) (h : s.rsReady = true) (hr : s.srcRate = 0#24) :
    exec (.feed smp) s = .fault .sourceRateZero := by
  simp [exec, execFeed, h, hr]

theorem exec_feed_overflow (smp : S16) (h : s.rsReady = true) (hr : s.srcRate ≠ 0#24)
    (hq : s.cfg.qcap < s.q.length + pairCount s) :
    exec (.feed smp) s = .next (s.raiseFault .queueOverflow (zextNat s.q.length)) := by
  simp [exec, execFeed, h, hr, hq]

theorem exec_feed_room (smp : S16) (h : s.rsReady = true) (hr : s.srcRate ≠ 0#24)
    (hq : s.q.length + pairCount s ≤ s.cfg.qcap) :
    exec (.feed smp) s = .next (State.respond
      { s with
        hist := shiftIn smp s.hist
        acc := BitVec.ofNat 25 (feedEmission smp s).1
        q := s.q ++ (feedEmission smp s).2 } 0#32) := by
  simp [exec, execFeed, h, hr, Nat.not_lt.2 hq]

theorem exec_pending : exec .pending s = .next (s.respond (zextNat s.q.length)) := rfl

theorem exec_pop_empty (h : s.q = []) : exec .pop s = .next (s.raiseFault .queueEmpty 0#32) := by
  simp [exec, execPop, h]

theorem exec_pop_pair {p : Pair} {rest : List Pair} (h : s.q = p :: rest) :
    exec .pop s = .next (State.respond { s with q := rest } (p.right ++ p.left)) := by
  simp [exec, execPop, h]

theorem exec_readStatus : exec .readStatus s = .next (s.respond (statusWord s)) := rfl

theorem exec_readFaultInfo : exec .readFaultInfo s = .next (s.respond s.faultInfo) := rfl

/-- A command's own effect from `s`: the state before the response, and DATA. -/
def OwnEffect (s u : State) (v : U32) : Instr → Prop
  | .build => s.palBuilt = false ∧ u = { s with ct := s.ct.writeAll (tableWrites s.cfg), palBuilt := true } ∧ v = 0#32
  | .convert =>
    s.palBuilt = true ∧ firstBad s = none
      ∧ u = { s with out := s.out.writeAll ((pixels s.cfg).map (pixelWrite s)) } ∧ v = 0#32
  | .lutRead idx => s.palBuilt = true ∧ u = s ∧ v = zext32 (ctRead s idx.toNat)
  | .rsReset =>
    u = { s with acc := 0#25, hist := List.replicate s.cfg.histLen 0#16, q := [], rsReady := true } ∧ v = 0#32
  | .setSrcRate rate => rate ≠ 0#24 ∧ u = { s with srcRate := rate, rsReady := false } ∧ v = 0#32
  | .setDstRate rate => rate ≠ 0#24 ∧ u = { s with dstRate := rate, rsReady := false } ∧ v = 0#32
  | .getSrcRate => u = s ∧ v = zext32 s.srcRate
  | .getDstRate => u = s ∧ v = zext32 s.dstRate
  | .feed smp =>
    s.rsReady = true ∧ s.srcRate ≠ 0#24 ∧ s.q.length + pairCount s ≤ s.cfg.qcap
      ∧ u = { s with
              hist := shiftIn smp s.hist
              acc := BitVec.ofNat 25 (feedEmission smp s).1
              q := s.q ++ (feedEmission smp s).2 } ∧ v = 0#32
  | .pending => u = s ∧ v = zextNat s.q.length
  | .pop => ∃ p rest, s.q = p :: rest ∧ u = { s with q := rest } ∧ v = p.right ++ p.left
  | .readStatus => u = s ∧ v = statusWord s
  | .readFaultInfo => u = s ∧ v = s.faultInfo

/-- The fault a command takes from `s`, with its information (R84): the condition of the cause's row. -/
def TakenFault (s : State) (c : Cause) (info : U32) : Instr → Prop
  | .build => s.palBuilt = true ∧ c = .paletteRebuild ∧ info = 0#32
  | .convert =>
    (s.palBuilt = false ∧ c = .paletteNotBuilt ∧ info = 0#32)
      ∨ (s.palBuilt = true ∧ ∃ a, firstBad s = some a ∧ c = .indexRange ∧ info = zextNat a)
  | .lutRead idx => s.palBuilt = false ∧ c = .paletteNotBuilt ∧ info = zext32 idx
  | .setSrcRate rate => rate = 0#24 ∧ c = .rateZero ∧ info = 0x11000000#32
  | .setDstRate rate => rate = 0#24 ∧ c = .rateZero ∧ info = 0x12000000#32
  | .feed _ =>
    (s.rsReady = false ∧ c = .rsNotReady ∧ info = 0#32)
      ∨ (s.rsReady = true ∧ s.srcRate ≠ 0#24 ∧ s.cfg.qcap < s.q.length + pairCount s ∧ c = .queueOverflow
          ∧ info = zextNat s.q.length)
  | .pop => s.q = [] ∧ c = .queueEmpty ∧ info = 0#32
  | .rsReset | .getSrcRate | .getDstRate | .pending | .readStatus | .readFaultInfo => False

/-- The state a fault's procedure starts from: INDEX_RANGE leaves OUT's logical cells open (R66, R85). -/
def faultBase (s : State) (c : Cause) : State := if c = .indexRange then s.scrambleLogical else s

/-- Everything a dispatched command can do: its own effect, a recorded fault, or the stop of FEED at SRC_RATE 0. -/
theorem exec_total (i : Instr) (s : State) :
    (∃ u v, OwnEffect s u v i ∧ exec i s = .next (u.respond v))
    ∨ (∃ c info, TakenFault s c info i ∧ exec i s = .next ((faultBase s c).raiseFault c info))
    ∨ (s.srcRate = 0#24 ∧ s.rsReady = true ∧ exec i s = .fault .sourceRateZero) := by
  cases i with
  | build =>
    cases h : s.palBuilt
    · exact .inl ⟨_, _, ⟨h, rfl, rfl⟩, exec_build_new h⟩
    · exact .inr (.inl ⟨_, _, ⟨h, rfl, rfl⟩, exec_build_again h⟩)
  | convert =>
    cases h : s.palBuilt
    · exact .inr (.inl ⟨_, _, .inl ⟨h, rfl, rfl⟩, exec_convert_unbuilt h⟩)
    · cases hb : firstBad s
      · exact .inl ⟨_, _, ⟨h, hb, rfl, rfl⟩, exec_convert_good h hb⟩
      · exact .inr (.inl ⟨_, _, .inr ⟨h, _, hb, rfl, rfl⟩, exec_convert_bad h hb⟩)
  | lutRead idx =>
    cases h : s.palBuilt
    · exact .inr (.inl ⟨_, _, ⟨h, rfl, rfl⟩, exec_lutRead_unbuilt idx h⟩)
    · exact .inl ⟨_, _, ⟨h, rfl, rfl⟩, exec_lutRead_built idx h⟩
  | rsReset => exact .inl ⟨_, _, ⟨rfl, rfl⟩, exec_rsReset⟩
  | setSrcRate rate =>
    by_cases h : rate = 0#24
    · exact .inr (.inl ⟨_, _, ⟨h, rfl, rfl⟩, by rw [h]; exact exec_setSrcRate_zero⟩)
    · exact .inl ⟨_, _, ⟨h, rfl, rfl⟩, exec_setSrcRate h⟩
  | setDstRate rate =>
    by_cases h : rate = 0#24
    · exact .inr (.inl ⟨_, _, ⟨h, rfl, rfl⟩, by rw [h]; exact exec_setDstRate_zero⟩)
    · exact .inl ⟨_, _, ⟨h, rfl, rfl⟩, exec_setDstRate h⟩
  | getSrcRate => exact .inl ⟨_, _, ⟨rfl, rfl⟩, exec_getSrcRate⟩
  | getDstRate => exact .inl ⟨_, _, ⟨rfl, rfl⟩, exec_getDstRate⟩
  | feed smp =>
    cases h : s.rsReady
    · exact .inr (.inl ⟨_, _, .inl ⟨h, rfl, rfl⟩, exec_feed_notReady smp h⟩)
    · by_cases hr : s.srcRate = 0#24
      · exact .inr (.inr ⟨hr, rfl, exec_feed_zeroRate smp h hr⟩)
      · by_cases hq : s.q.length + pairCount s ≤ s.cfg.qcap
        · exact .inl ⟨_, _, ⟨h, hr, hq, rfl, rfl⟩, exec_feed_room smp h hr hq⟩
        · have hq := Nat.lt_of_not_le hq
          exact .inr (.inl ⟨_, _, .inr ⟨h, hr, hq, rfl, rfl⟩, exec_feed_overflow smp h hr hq⟩)
  | pending => exact .inl ⟨_, _, ⟨rfl, rfl⟩, exec_pending⟩
  | pop =>
    cases h : s.q with
    | nil => exact .inr (.inl ⟨_, _, ⟨h, rfl, rfl⟩, exec_pop_empty h⟩)
    | cons p rest => exact .inl ⟨_, _, ⟨p, rest, h, rfl, rfl⟩, exec_pop_pair h⟩
  | readStatus => exact .inl ⟨_, _, ⟨rfl, rfl⟩, exec_readStatus⟩
  | readFaultInfo => exact .inl ⟨_, _, ⟨rfl, rfl⟩, exec_readFaultInfo⟩

/-- The inversion of `exec_total` at a next state. -/
theorem exec_next {i : Instr} {s t : State} (h : exec i s = .next t) :
    (∃ u v, OwnEffect s u v i ∧ t = u.respond v)
    ∨ (∃ c info, TakenFault s c info i ∧ t = (faultBase s c).raiseFault c info) := by
  rcases exec_total i s with ⟨u, v, hu, he⟩ | ⟨c, info, hc, he⟩ | ⟨-, -, he⟩
  · exact .inl ⟨u, v, hu, Host.Outcome.next.inj (h.symm.trans he)⟩
  · exact .inr ⟨c, info, hc, Host.Outcome.next.inj (h.symm.trans he)⟩
  · rw [he] at h; cases h

/-- A command records a cause other than NONE. -/
theorem takenFault_ne_none {s : State} {c : Cause} {info : U32} {i : Instr} (h : TakenFault s c info i) : c ≠ .none := by
  cases i <;> simp only [TakenFault] at h <;> aesop

end Sys2Proof.Machine
end

