-- ==== Sys2Proof/Laws/Memory.lean ====
section
/-! SUPPORT. The laws of a storage space: reading back a write, leaving every other address alone, keeping the canonical form
and the space's range, for one write and for a list of writes. -/

namespace Sys2Proof.Machine

variable {w : Nat}

@[simp] theorem Memory.get?_nil (a : Nat) : Memory.get? ([] : Memory w) a = none := rfl

theorem Memory.get?_set (m : Memory w) (a b : Nat) (v : BitVec w) :
    (m.set a v).get? b = if b = a then some v else m.get? b := by
  induction m with
  | nil => simp [Memory.set, Memory.get?]
  | cons c m ih =>
    obtain ⟨d, u⟩ := c
    simp only [Memory.set]
    split
    · simp [Memory.get?]
    · split
      · rename_i h; subst h; simp only [Memory.get?]; split <;> simp_all
      · simp only [Memory.get?, ih]
        split <;> split <;> simp_all

@[simp] theorem Memory.get?_set_same (m : Memory w) (a : Nat) (v : BitVec w) : (m.set a v).get? a = some v := by
  simp [Memory.get?_set]

theorem Memory.get?_set_other (m : Memory w) {a b : Nat} (v : BitVec w) (h : b ≠ a) :
    (m.set a v).get? b = m.get? b := by
  simp [Memory.get?_set, h]

/-- The entries of a written memory are the write and old entries. -/
theorem Memory.mem_set {m : Memory w} {a : Nat} {v : BitVec w} {c : Nat × BitVec w} (h : c ∈ m.set a v) :
    c = (a, v) ∨ c ∈ m := by
  induction m with
  | nil => simpa [Memory.set] using h
  | cons d m ih =>
    obtain ⟨b, u⟩ := d
    simp only [Memory.set] at h
    split at h
    · simpa using h
    · split at h
      · rcases List.mem_cons.1 h with h | h <;> simp [h]
      · rcases List.mem_cons.1 h with h | h
        · simp [h]
        · rcases ih h with h | h <;> simp [h]

/-- A write keeps the canonical form. -/
theorem Memory.set_wf {m : Memory w} (h : m.wf) (a : Nat) (v : BitVec w) : (m.set a v).wf := by
  induction m with
  | nil => simp [Memory.set, Memory.wf]
  | cons d m ih =>
    obtain ⟨b, u⟩ := d
    obtain ⟨hb, hm⟩ := List.pairwise_cons.1 h
    simp only [Memory.set]
    split
    · rename_i hab
      refine List.pairwise_cons.2 ⟨?_, h⟩
      intro c hc
      rcases List.mem_cons.1 hc with rfl | hc
      · exact hab
      · exact Nat.lt_trans hab (hb c hc)
    · split
      · rename_i hab; subst hab; exact List.pairwise_cons.2 ⟨hb, hm⟩
      · refine List.pairwise_cons.2 ⟨?_, ih hm⟩
        intro c hc
        rcases Memory.mem_set hc with rfl | hc
        · change b < a; omega
        · exact hb c hc

/-- A write inside a space's range keeps every listed address in the range. -/
theorem Memory.set_within {m : Memory w} {n : Nat} (h : m.within n) {a : Nat} (ha : a < n) (v : BitVec w) :
    (m.set a v).within n := by
  intro c hc
  rcases Memory.mem_set hc with rfl | hc
  · exact ha
  · exact h c hc

@[simp] theorem Memory.writeAll_nil (m : Memory w) : m.writeAll [] = m := rfl

@[simp] theorem Memory.writeAll_cons (m : Memory w) (c : Nat × BitVec w) (ws : List (Nat × BitVec w)) :
    m.writeAll (c :: ws) = (m.writeAll ws).set c.1 c.2 := rfl

/-- A list of writes keeps the canonical form. -/
theorem Memory.writeAll_wf {m : Memory w} (h : m.wf) (ws : List (Nat × BitVec w)) : (m.writeAll ws).wf := by
  induction ws with
  | nil => exact h
  | cons c ws ih => exact Memory.set_wf ih _ _

/-- A list of writes inside a space's range keeps every listed address in the range. -/
theorem Memory.writeAll_within {m : Memory w} {n : Nat} (h : m.within n) {ws : List (Nat × BitVec w)}
    (hw : ∀ c ∈ ws, c.1 < n) : (m.writeAll ws).within n := by
  induction ws with
  | nil => exact h
  | cons c ws ih =>
    exact Memory.set_within (ih fun d hd => hw d (List.mem_cons_of_mem _ hd)) (hw c List.mem_cons_self) _

/-- An address no write of the list names reads as before. -/
theorem Memory.get?_writeAll_other (m : Memory w) {ws : List (Nat × BitVec w)} {a : Nat}
    (h : ∀ c ∈ ws, c.1 ≠ a) : (m.writeAll ws).get? a = m.get? a := by
  induction ws with
  | nil => rfl
  | cons c ws ih =>
    rw [Memory.writeAll_cons, Memory.get?_set_other _ _ (h c List.mem_cons_self).symm]
    exact ih fun d hd => h d (List.mem_cons_of_mem _ hd)

/-- Writes computed by `addr` and `val` from a list: an address `addr x` reads back as `val x`, if equal addresses of the list
are given equal values. -/
theorem Memory.get?_writeAll_map {α : Type} (m : Memory w) (addr : α → Nat) (val : α → BitVec w) {xs : List α} {x : α}
    (hx : x ∈ xs) (h : ∀ y ∈ xs, addr y = addr x → val y = val x) :
    (m.writeAll (xs.map fun y => (addr y, val y))).get? (addr x) = some (val x) := by
  induction xs with
  | nil => simp at hx
  | cons y ys ih =>
    rw [List.map_cons, Memory.writeAll_cons, Memory.get?_set]
    by_cases he : addr x = addr y
    · rw [if_pos he, h y List.mem_cons_self he.symm]
    · rw [if_neg he]
      rcases List.mem_cons.1 hx with rfl | hx
      · exact absurd rfl he
      · exact ih hx fun z hz => h z (List.mem_cons_of_mem _ hz)

/-- Reset memory is canonical. -/
theorem reset_memories_wf : State.reset.ct.wf ∧ State.reset.inMem.wf ∧ State.reset.out.wf :=
  ⟨List.Pairwise.nil, List.Pairwise.nil, List.Pairwise.nil⟩

end Sys2Proof.Machine
end

