-- ==== Sys2Proof/Laws/Frame.lean ====
section
/-! SUPPORT. CONVERT's pixel loop: the first bad cell, and what the writes of the logical pixels leave in OUT
(spec/41_frame_converter.md R64, R66). -/

namespace Sys2Proof.Machine

/-- No first bad cell is found exactly when every cell is a palette index. -/
theorem firstBad_none (s : State) :
    firstBad s = none
      ↔ ∀ x y, x < s.cfg.width → y < s.cfg.height → badCell (inRead s (inAddr s.cfg x y)) = false := by
  simp only [firstBad, List.find?_eq_none, List.mem_map, Prod.exists, mem_pixels, forall_exists_index, and_imp,
    Bool.not_eq_true]
  constructor
  · intro h x y hx hy; exact h _ x y hx hy rfl
  · rintro h a x y hx hy rfl; exact h x y hx hy

/-- CONVERT's order is the order of IN's addresses: the loop meets 0, 1, 2 and so on (R34, R64). -/
theorem scan_order (c : Cfg) : (pixels c).map (fun p => inAddr c p.1 p.2) = List.range (inSize c) := by
  have key : ∀ w h : Nat, ((List.range h).flatMap (fun y => (List.range w).map (fun x => (x, y)))).map
      (fun p : Nat × Nat => p.2 * w + p.1) = List.range (w * h) := by
    intro w h
    induction h with
    | zero => simp
    | succ h ih =>
      rw [List.range_succ, List.flatMap_append, List.map_append, ih, Nat.mul_succ, List.range_add]
      simp [Function.comp_def, Nat.mul_comm]
  exact key c.width c.height

/-- The first bad cell is bad, is inside IN, and every cell below it is an index. -/
theorem firstBad_some {s : State} {a : Nat} :
    firstBad s = some a
      ↔ a < inSize s.cfg ∧ badCell (inRead s a) = true ∧ ∀ b, b < a → badCell (inRead s b) = false := by
  rw [firstBad, scan_order, List.find?_range_eq_some]
  simp [and_left_comm]

/-- The logical pixels' addresses are the ones R29 names. -/
theorem mem_logicalAddrs (c : Cfg) (a : Nat) : a ∈ logicalAddrs c ↔ IsLogical c a := by
  simp [logicalAddrs, IsLogical, eq_comm, and_assoc]

/-- After the writes of the logical pixels, a logical pixel holds its own write. -/
theorem get?_pixelWrites (s : State) (m : Memory 16) {x y : Nat} (hx : x < s.cfg.width) (hy : y < s.cfg.height) :
    (m.writeAll ((pixels s.cfg).map (pixelWrite s))).get? (outAddr s.cfg x y) = some (pixelWrite s (x, y)).2 := by
  refine Memory.get?_writeAll_map m (fun p : Nat × Nat => outAddr s.cfg p.1 p.2) (fun p => (pixelWrite s p).2)
    (x := (x, y)) ((mem_pixels _ _ _).2 ⟨hx, hy⟩) ?_
  rintro ⟨x', y'⟩ hp h
  obtain ⟨rfl, rfl⟩ := outAddr_inj s.cfg ((mem_pixels _ _ _).1 hp).1 hx h
  rfl

/-- Every write of CONVERT is at a logical pixel. -/
theorem pixelWrites_logical (s : State) : ∀ d ∈ (pixels s.cfg).map (pixelWrite s), IsLogical s.cfg d.1 := by
  intro d hd
  obtain ⟨⟨x, y⟩, hp, rfl⟩ := List.mem_map.1 hd
  exact ⟨x, y, ((mem_pixels _ _ _).1 hp).1, ((mem_pixels _ _ _).1 hp).2, rfl⟩

/-- After the writes of the logical pixels, no other cell of OUT has changed. -/
theorem get?_pixelWrites_other (s : State) (m : Memory 16) {a : Nat} (h : ¬ IsLogical s.cfg a) :
    (m.writeAll ((pixels s.cfg).map (pixelWrite s))).get? a = m.get? a :=
  Memory.get?_writeAll_other m fun d hd he => h (he ▸ pixelWrites_logical s d hd)

/-- After an INDEX_RANGE fault, every logical cell of OUT is a draw (R66). -/
theorem outRead_scrambleLogical {s : State} {a : Nat} (h : IsLogical s.cfg a) :
    outRead s.scrambleLogical a = Config.freeOut s.draws a := by
  have := Memory.get?_writeAll_map s.out (fun a : Nat => a) (fun a => Config.freeOut s.draws a)
    ((mem_logicalAddrs _ _).2 h) (fun y _ hy => by rw [show y = a from hy])
  simp only [outRead, State.scrambleLogical, this, Option.getD_some]

/-- After an INDEX_RANGE fault, every other cell of OUT is as before (R66). -/
theorem outRead_scrambleLogical_other {s : State} {a : Nat} (h : ¬ IsLogical s.cfg a) :
    outRead s.scrambleLogical a = outRead s a := by
  have : (s.out.writeAll ((logicalAddrs s.cfg).map (fun a => (a, Config.freeOut s.draws a)))).get? a = s.out.get? a := by
    refine Memory.get?_writeAll_other _ fun d hd he => h ?_
    obtain ⟨b, hb, rfl⟩ := List.mem_map.1 hd
    exact he ▸ (mem_logicalAddrs _ _).1 hb
  simp only [outRead, State.scrambleLogical, this]

/-- A logical pixel is inside OUT (R38). -/
theorem isLogical_lt {c : Cfg} {a : Nat} (h : IsLogical c a) : a < outSize c := by
  obtain ⟨x, y, hx, hy, rfl⟩ := h
  exact outAddr_lt c hx hy

end Sys2Proof.Machine
end

