-- ==== Sys2Proof/Laws/Ops.lean ====
section
/-! SUPPORT. What each shared operation of the host's port and the dispatch can do, said once: later proofs cite these and do not
unfold the operations. -/

namespace Sys2Proof.Machine

/-- What the dispatch of a word can be (R51): a refusal after a fault, a decode fault, or the command's own rule. -/
theorem runCommand_cases (w : U32) (s : State) :
    (s.faulted = true ∧ readsStatus w = false ∧ runCommand w s = .next s.refuseAfterFault)
    ∨ ((s.faulted = false ∨ readsStatus w = true) ∧
        ((decode w = .error .illegalOpcode ∧ runCommand w s = .next (s.raiseFault .illegalOpcode w))
        ∨ (decode w = .error .reservedBits ∧ runCommand w s = .next (s.raiseFault .reservedBits w))
        ∨ ∃ i, decode w = .ok i ∧ runCommand w s = exec i s)) := by
  by_cases h : (s.faulted && !readsStatus w) = true
  · left
    simp only [Bool.and_eq_true, Bool.not_eq_true'] at h
    exact ⟨h.1, h.2, by simp [runCommand, h.1, h.2]⟩
  · right
    refine ⟨by cases hf : s.faulted <;> simp_all, ?_⟩
    rw [runCommand, if_neg h]
    cases hd : decode w with
    | ok i => simp
    | error e => cases e <;> simp

/-- What a step can be: waiting, or one action of the host on the state without it. -/
theorem step_cases (s : State) :
    (s.pending = [] ∧ step s = .next s)
    ∨ ∃ ev rest, s.pending = ev :: rest ∧ step s = serve ev { s with pending := rest } := by
  unfold step takeEvent
  cases hp : s.pending with
  | nil => simp
  | cons ev rest => exact .inr ⟨ev, rest, rfl, rfl⟩

/-- A step on a presented word is its dispatch. -/
theorem step_command {s : State} {w : U32} {rest : List HostEvent} (h : s.pending = .command w :: rest) :
    step s = runCommand w { s with pending := rest } := by
  simp [step, takeEvent, h, serve]

/-- The word placed by `withFetchWord` is the one the next step dispatches, on the state it was placed in. -/
theorem step_withFetchWord (s : State) (nbits w : Nat) :
    step (s.withFetchWord nbits w) = runCommand (BitVec.ofNat 32 w) s := rfl

/-- What the host's IN write can be (R38). -/
theorem hostWriteIn_cases (a : Nat) (v : U16) (s : State) :
    (a < inSize s.cfg ∧ hostWriteIn a v s = .next { s with inMem := s.inMem.set a v })
    ∨ (inSize s.cfg ≤ a ∧ hostWriteIn a v s = .refused (.hostAddress .inFrame a)) := by
  unfold hostWriteIn
  split
  · exact .inl ⟨‹_›, rfl⟩
  · exact .inr ⟨by omega, rfl⟩

/-- What the host's IN read can be (R33, R38). -/
theorem hostReadIn_cases (a : Nat) (s : State) :
    (a < inSize s.cfg ∧ hostReadIn a s = .next { s with hostReads := s.hostReads ++ [inRead s a] })
    ∨ (inSize s.cfg ≤ a ∧ hostReadIn a s = .refused (.hostAddress .inFrame a)) := by
  unfold hostReadIn
  split
  · exact .inl ⟨‹_›, rfl⟩
  · exact .inr ⟨by omega, rfl⟩

/-- What the host's OUT read can be (R29, R38). -/
theorem hostReadOut_cases (a : Nat) (s : State) :
    (a < outSize s.cfg ∧ hostReadOut a s = .next { s with hostReads := s.hostReads ++ [outRead s a] })
    ∨ (outSize s.cfg ≤ a ∧ hostReadOut a s = .refused (.hostAddress .outFrame a)) := by
  unfold hostReadOut
  split
  · exact .inl ⟨‹_›, rfl⟩
  · exact .inr ⟨by omega, rfl⟩

/-- A number that fits 32 bits is its own word (R10). -/
theorem zextNat_eq {n : Nat} (h : n < 2 ^ 32) : zextNat n = BitVec.ofNat 32 n := if_pos h

/-- A number that does not fit 32 bits gives a free value (log entry 9). -/
theorem zextNat_free {n : Nat} (h : 2 ^ 32 ≤ n) : zextNat n = Config.freeWord n := if_neg (Nat.not_lt.2 h)

end Sys2Proof.Machine
end

