-- ==== Sys2Proof/Laws/Palette.lean ====
section
/-! SUPPORT. What the writes of BUILD leave in the Color Table (spec/40_palette.md R57, R59). -/

namespace Sys2Proof.Machine

theorem tableWrites_eq (c : Cfg) :
    tableWrites c = (List.range 512).map (fun i => (i, entry c (BitVec.ofNat 9 i))) := by
  unfold tableWrites; rfl

/-- After BUILD's writes, entry i of the table is Entry(i). -/
theorem get?_tableWrites (m : Memory 24) (c : Cfg) (i : U9) :
    (m.writeAll (tableWrites c)).get? i.toNat = some (entry c i) := by
  have h := Memory.get?_writeAll_map m (fun i : Nat => i) (fun i => entry c (BitVec.ofNat 9 i))
    (xs := List.range 512) (x := i.toNat) (List.mem_range.2 i.isLt) (fun y _ hy => by rw [show y = i.toNat from hy])
  simpa [tableWrites_eq] using h

/-- A state whose table BUILD has written reads as Entry. -/
theorem ctRead_of_tableWrites {t : State} {m : Memory 24} {c : Cfg} (h : t.ct = m.writeAll (tableWrites c)) (i : U9) :
    ctRead t i.toNat = entry c i := by
  rw [ctRead, h, get?_tableWrites, Option.getD_some]

/-- BUILD's writes stay inside the table. -/
theorem tableWrites_range (c : Cfg) : ∀ d ∈ tableWrites c, d.1 < 512 := by
  intro d hd
  rw [tableWrites_eq] at hd
  obtain ⟨i, hi, rfl⟩ := List.mem_map.1 hd
  exact List.mem_range.1 hi

/-- An index is its emphasis value times 64 plus its hue (R18). -/
theorem index_split (i : U9) : i.toNat = emphasis i * 64 + hue i := by
  have h := i.isLt
  simp only [emphasis, hue, BitVec.extractLsb'_toNat, Nat.shiftRight_eq_div_pow]
  omega

end Sys2Proof.Machine
end

