-- ==== Sys2Proof/Laws/PerInstr.lean ====
section
/-! SUPPORT. One statement about every command as syntax: its word lies in its row of the opcode map (spec/30_encoding.md R50),
that is, it meets the row's full-word match under the row's full-word mask. -/

namespace Sys2Proof.Laws

/-- A word's bits, one by one, decide a masked comparison. -/
theorem or_and_eq {a b m : BitVec 32} (ha : a &&& m = a) (hb : b &&& m = 0#32) : (a ||| b) &&& m = a := by
  have h : (a ||| b) &&& m = (a &&& m) ||| (b &&& m) := by
    ext i hi
    simp [Bool.and_or_distrib_right]
  rw [h, ha, hb, BitVec.or_zero]

/-- An operand of `k` bits leaves every bit from `k` up at 0. -/
theorem operand_and_eq {k : Nat} (v : BitVec k) (m : BitVec 32) (h : ∀ i, i < k → m.getLsbD i = false) :
    v.setWidth 32 &&& m = 0#32 := by
  ext i hi
  simp only [BitVec.getElem_and, BitVec.getElem_setWidth, BitVec.getElem_zero]
  by_cases hk : i < k
  · rw [← BitVec.getLsbD_eq_getElem (x := m), h i hk, Bool.and_false]
  · rw [BitVec.getLsbD_of_ge v i (by omega), Bool.false_and]

/-- A row's match with an operand below its mask's bits meets the match under the mask. -/
theorem operand_in_row {k : Nat} (v : BitVec k) {i : Instr} {r : Row} {op : BitVec 32} (hi : encode i = op ||| v.setWidth 32)
    (hr : rowMatch r = op) (hm : op &&& rowMask r = op) (h : ∀ i, i < k → (rowMask r).getLsbD i = false) :
    encode i &&& rowMask r = rowMatch r := by
  rw [hi, hr]
  exact or_and_eq hm (operand_and_eq v _ h)

/-- `encode i` is in a row of the opcode map: it meets the row's match under the row's mask (R50). -/
def WordInRow.Statement (i : Instr) : Prop := ∃ r ∈ rows, encode i &&& rowMask r = rowMatch r

theorem WordInRow.build : WordInRow.Statement .build := ⟨rows[0], by simp [rows], by decide⟩
theorem WordInRow.convert : WordInRow.Statement .convert := ⟨rows[1], by simp [rows], by decide⟩
theorem WordInRow.lutRead (idx : U9) : WordInRow.Statement (.lutRead idx) :=
  ⟨rows[2], by simp [rows], operand_in_row idx (op := 0x03000000#32) rfl (by decide) (by decide) (by decide)⟩
theorem WordInRow.rsReset : WordInRow.Statement .rsReset := ⟨rows[3], by simp [rows], by decide⟩
theorem WordInRow.setSrcRate (rate : U24) : WordInRow.Statement (.setSrcRate rate) :=
  ⟨rows[4], by simp [rows], operand_in_row rate (op := 0x11000000#32) rfl (by decide) (by decide) (by decide)⟩
theorem WordInRow.setDstRate (rate : U24) : WordInRow.Statement (.setDstRate rate) :=
  ⟨rows[5], by simp [rows], operand_in_row rate (op := 0x12000000#32) rfl (by decide) (by decide) (by decide)⟩
theorem WordInRow.getSrcRate : WordInRow.Statement .getSrcRate := ⟨rows[6], by simp [rows], by decide⟩
theorem WordInRow.getDstRate : WordInRow.Statement .getDstRate := ⟨rows[7], by simp [rows], by decide⟩
theorem WordInRow.feed (smp : S16) : WordInRow.Statement (.feed smp) :=
  ⟨rows[8], by simp [rows], operand_in_row smp (op := 0x15000000#32) rfl (by decide) (by decide) (by decide)⟩
theorem WordInRow.pending : WordInRow.Statement .pending := ⟨rows[9], by simp [rows], by decide⟩
theorem WordInRow.pop : WordInRow.Statement .pop := ⟨rows[10], by simp [rows], by decide⟩
theorem WordInRow.readStatus : WordInRow.Statement .readStatus := ⟨rows[11], by simp [rows], by decide⟩
theorem WordInRow.readFaultInfo : WordInRow.Statement .readFaultInfo := ⟨rows[12], by simp [rows], by decide⟩

end Sys2Proof.Laws
end

