-- ==== Sys2Proof/Laws/Reads.lean ====
section
/-! SUPPORT. A cell or entry reads as before after every named update that leaves its space alone. -/

namespace Sys2Proof.Machine

variable (s : State)

@[simp] theorem ctRead_answer (err : Bool) (v : U32) (i : Nat) : ctRead (s.answer err v) i = ctRead s i := rfl
@[simp] theorem inRead_answer (err : Bool) (v : U32) (a : Nat) : inRead (s.answer err v) a = inRead s a := rfl
@[simp] theorem outRead_answer (err : Bool) (v : U32) (a : Nat) : outRead (s.answer err v) a = outRead s a := rfl

@[simp] theorem ctRead_respond (v : U32) (i : Nat) : ctRead (s.respond v) i = ctRead s i := rfl
@[simp] theorem inRead_respond (v : U32) (a : Nat) : inRead (s.respond v) a = inRead s a := rfl
@[simp] theorem outRead_respond (v : U32) (a : Nat) : outRead (s.respond v) a = outRead s a := rfl

@[simp] theorem ctRead_raiseFault (c : Cause) (info : U32) (i : Nat) : ctRead (s.raiseFault c info) i = ctRead s i := rfl
@[simp] theorem inRead_raiseFault (c : Cause) (info : U32) (a : Nat) : inRead (s.raiseFault c info) a = inRead s a := rfl
@[simp] theorem outRead_raiseFault (c : Cause) (info : U32) (a : Nat) : outRead (s.raiseFault c info) a = outRead s a := rfl

@[simp] theorem ctRead_refuseAfterFault (i : Nat) : ctRead (s.refuseAfterFault) i = ctRead s i := rfl
@[simp] theorem inRead_refuseAfterFault (a : Nat) : inRead (s.refuseAfterFault) a = inRead s a := rfl
@[simp] theorem outRead_refuseAfterFault (a : Nat) : outRead (s.refuseAfterFault) a = outRead s a := rfl

@[simp] theorem ctRead_scrambleLogical (i : Nat) : ctRead s.scrambleLogical i = ctRead s i := rfl
@[simp] theorem inRead_scrambleLogical (a : Nat) : inRead s.scrambleLogical a = inRead s a := rfl

/-- The power-on event leaves IN as it is (R96). -/
@[simp] theorem inRead_powerOn (a : Nat) : inRead s.powerOn a = inRead s a := rfl

/-- After the power-on event CT reads as the free values of its draw (R17). -/
@[simp] theorem ctRead_powerOn (i : Nat) : ctRead s.powerOn i = Config.freeCt s.draws i := rfl

/-- After the power-on event OUT reads as the free values of its draw (R17). -/
@[simp] theorem outRead_powerOn (a : Nat) : outRead s.powerOn a = Config.freeOut s.draws a := rfl

/-- A read of CT sees CT and the draw of the last power-on event alone. -/
theorem ctRead_congr {s t : State} (h : t.ct = s.ct) (he : t.epoch = s.epoch) (i : Nat) : ctRead t i = ctRead s i := by
  rw [ctRead, ctRead, h, he]

/-- A read of IN sees IN alone. -/
theorem inRead_congr {s t : State} (h : t.inMem = s.inMem) (a : Nat) : inRead t a = inRead s a := by
  rw [inRead, inRead, h]

/-- A read of OUT sees OUT and the draw of the last power-on event alone. -/
theorem outRead_congr {s t : State} (h : t.out = s.out) (he : t.epoch = s.epoch) (a : Nat) :
    outRead t a = outRead s a := by
  rw [outRead, outRead, h, he]

end Sys2Proof.Machine
end

