-- ==== Sys2Proof/Laws/Resampler.lean ====
section
/-! SUPPORT. The emission loop of FEED (spec/42_resampler.md R76): what it leaves in ACC, how many pairs it pushes, which, and
the count the capacity check uses. -/

namespace Sys2Proof.Machine

/-- Run with enough rounds available, the loop subtracts R once a round. -/
theorem emit_acc (value : Nat → S16) (r : Nat) :
    ∀ n acc, n * r ≤ acc → (emit value r n acc).1 = acc - n * r
  | 0, acc, _ => by simp [emit]
  | n + 1, acc, h => by
    have hr : (n + 1) * r = n * r + r := by ring
    rw [emit, if_pos (by omega)]
    simp only
    rw [emit_acc value r n (acc - r) (by omega)]
    omega

/-- The loop pushes one pair a round: after k rounds ACC is `acc - k*R`, and the pair carries the kernel's value there on both
channels. -/
theorem emit_pairs (value : Nat → S16) (r : Nat) :
    ∀ n acc, n * r ≤ acc →
      (emit value r n acc).2 = (List.range n).map (fun k => ⟨value (acc - (k + 1) * r), value (acc - (k + 1) * r)⟩)
  | 0, acc, _ => by simp [emit]
  | n + 1, acc, h => by
    have hr : (n + 1) * r = n * r + r := by ring
    rw [emit, if_pos (by omega)]
    simp only
    rw [emit_pairs value r n (acc - r) (by omega), List.range_succ_eq_map, List.map_cons, List.map_map]
    congr 1
    · simp
    · apply List.map_congr_left
      intro k _
      have : acc - r - (k + 1) * r = acc - (k + 1 + 1) * r := by
        have : (k + 1 + 1) * r = (k + 1) * r + r := by ring
        omega
      simp [Function.comp, this]

/-- The rounds the capacity check counts all run. -/
theorem pairCount_mul_le (s : State) : pairCount s * s.srcRate.toNat ≤ s.acc.toNat + s.dstRate.toNat :=
  Nat.div_mul_le_self _ _

/-- A positive rate as a number. -/
theorem rate_pos {r : U24} (h : r ≠ 0#24) : 0 < r.toNat :=
  Nat.pos_of_ne_zero fun h' => h (BitVec.eq_of_toNat_eq (by simpa using h'))

/-- A FEED leaves ACC + T reduced below R (R69, R76). -/
theorem feedEmission_acc (smp : S16) (s : State) :
    (feedEmission smp s).1 = (s.acc.toNat + s.dstRate.toNat) % s.srcRate.toNat := by
  have h := Nat.div_add_mod (s.acc.toNat + s.dstRate.toNat) s.srcRate.toNat
  rw [feedEmission, emit_acc _ _ _ _ (pairCount_mul_le s), pairCount, Nat.mul_comm]
  omega

/-- A FEED's pairs, in order: the kernel's value at each num, on both channels (R70, R76). -/
theorem feedEmission_pairs (smp : S16) (s : State) :
    (feedEmission smp s).2 = (List.range (pairCount s)).map (fun k =>
      let y := kernel s.cfg (shiftIn smp s.hist) (s.acc.toNat + s.dstRate.toNat - (k + 1) * s.srcRate.toNat)
        s.srcRate.toNat s.dstRate.toNat
      ⟨y, y⟩) :=
  emit_pairs _ _ _ _ (pairCount_mul_le s)

@[simp] theorem feedEmission_length (smp : S16) (s : State) : (feedEmission smp s).2.length = pairCount s := by
  simp [feedEmission_pairs]

/-- The new ACC fits its register and is below SRC_RATE (R25). -/
theorem feedEmission_acc_toNat (smp : S16) {s : State} (h : s.srcRate ≠ 0#24) :
    (BitVec.ofNat 25 (feedEmission smp s).1).toNat = (s.acc.toNat + s.dstRate.toNat) % s.srcRate.toNat := by
  have h1 := Nat.mod_lt (s.acc.toNat + s.dstRate.toNat) (rate_pos h)
  have h2 := s.srcRate.isLt
  rw [feedEmission_acc, BitVec.toNat_ofNat, Nat.mod_eq_of_lt (by omega)]

@[simp] theorem shiftIn_length (smp : S16) (hist : List S16) : (shiftIn smp hist).length = hist.length := by
  simp [shiftIn]

/-- The new sample is entry 0 (R26, R76). -/
theorem shiftIn_zero {smp : S16} {hist : List S16} (h : 0 < hist.length) : (shiftIn smp hist)[0]? = some smp := by
  simp [shiftIn, h]

/-- Every other entry is one place older (R76). -/
theorem shiftIn_succ {smp : S16} {hist : List S16} {k : Nat} (h : k + 1 < hist.length) :
    (shiftIn smp hist)[k + 1]? = hist[k]? := by
  simp [shiftIn, h]

end Sys2Proof.Machine
end

