-- ==== Sys2Proof/Tests/Slice0.lean ====
section
/-! SUPPORT. Tests: expected values from spec/95_test_vectors.md and the rules' own examples, one step each; a smoke test of
WellFormed; and a witness for the hypotheses of every statement that has any. -/

open Sys2Proof Sys2Proof.Machine

namespace Sys2Proof.Tests

/-! ### Test configurations (spec/95_test_vectors.md, section 2) -/

/-- P_BASE of TC1. -/
def baseTC1 : List U24 :=
  (((((((List.replicate 64 0#24).set 0x00 0x7C7C7C#24).set 0x01 0x0000FC#24).set 0x02 0x020202#24).set 0x06
    0x060606#24).set 0x20 0xF8F8F8#24).set 0x30 0xFCFCFC#24)

/-- K_lin at the arguments that V-R2's first FEED and P7 reach (TC-R2, TC-R3: R = 2, T = 5). -/
def pointsLin : List KernelPoint :=
  [⟨[100#16, 0#16], 3, 2, 5, 40#16⟩, ⟨[100#16, 0#16], 1, 2, 5, 80#16⟩, ⟨[0xFF38#16, 200#16], 3, 2, 5, 40#16⟩,
   ⟨[0xFF38#16, 200#16], 1, 2, 5, 0xFF88#16⟩]

/-- K_new at the arguments that V-R1's FEED 20 reaches (TC-R1: R = 3, T = 2). -/
def pointsNew : List KernelPoint := [⟨[20#16, 10#16], 1, 3, 2, 20#16⟩]

/-- TC1 with TC-F1's frame, and a resampler of history length 2. -/
def params (src dst : U24) (qcap : Nat) (points : List KernelPoint) : Params where
  width := 2
  height := 2
  stride := 3
  outRows := 3
  base := baseTC1
  fden := 1000
  fnumR := [1000, 1239, 794, 1019, 905, 1023, 741, 750]
  fnumG := [1000, 915, 1029, 980, 1026, 908, 987, 750]
  fnumB := [1000, 743, 882, 653, 1277, 979, 101, 750]
  srcRate0 := src
  dstRate0 := dst
  histLen := 2
  qcap := qcap
  kernelPoints := points

/-- TC-F1 with TC-R1. -/
def tcR1 : Cfg := ⟨params 3#24 2#24 4 pointsNew, by decide⟩

/-- TC-F1 with TC-R2. -/
def tcR2 : Cfg := ⟨params 2#24 5#24 8 pointsLin, by decide⟩

/-- TC-F1 with TC-R3. -/
def tcR3 : Cfg := ⟨params 2#24 5#24 4 pointsLin, by decide⟩

/-! ### WellFormed: one ill-formed configuration for each check -/

def good : Params := params 3#24 2#24 4 []

theorem test_accepts_good : good.accept.isSome = true := by decide
theorem test_refuses_width_zero : ({ good with width := 0 } : Params).accept = none := by decide
theorem test_refuses_height_zero : ({ good with height := 0 } : Params).accept = none := by decide
theorem test_refuses_stride_below_width : ({ good with stride := 1 } : Params).accept = none := by decide
theorem test_refuses_rows_below_height : ({ good with outRows := 1 } : Params).accept = none := by decide
theorem test_refuses_base_length : ({ good with base := [] } : Params).accept = none := by decide
theorem test_refuses_fden_zero :
    ({ good with
        fden := 0
        fnumR := [0, 0, 0, 0, 0, 0, 0, 0]
        fnumG := [0, 0, 0, 0, 0, 0, 0, 0]
        fnumB := [0, 0, 0, 0, 0, 0, 0, 0] } : Params).accept = none := by decide
theorem test_refuses_red_length : ({ good with fnumR := [1000] } : Params).accept = none := by decide
theorem test_refuses_red_entry_zero :
    ({ good with fnumR := [999, 1, 1, 1, 1, 1, 1, 1] } : Params).accept = none := by decide
theorem test_refuses_green_entry_zero :
    ({ good with fnumG := [999, 1, 1, 1, 1, 1, 1, 1] } : Params).accept = none := by decide
theorem test_refuses_blue_entry_zero :
    ({ good with fnumB := [999, 1, 1, 1, 1, 1, 1, 1] } : Params).accept = none := by decide
theorem test_refuses_source_rate_zero : ({ good with srcRate0 := 0#24 } : Params).accept = none := by decide
theorem test_refuses_target_rate_zero : ({ good with dstRate0 := 0#24 } : Params).accept = none := by decide
theorem test_refuses_history_zero : ({ good with histLen := 0 } : Params).accept = none := by decide
theorem test_refuses_capacity_zero : ({ good with qcap := 0 } : Params).accept = none := by decide
theorem test_refuses_capacity_65536 : ({ good with qcap := 65536 } : Params).accept = none := by decide

/-! ### Decoding: words written bit by bit from R48 and R49, OP then OPD -/

theorem test_decode_build : decode 0b00000001_00000000_00000000_00000000#32 = .ok .build := by decide
theorem test_decode_convert : decode 0b00000010_00000000_00000000_00000000#32 = .ok .convert := by decide
theorem test_decode_lutRead : decode 0b00000011_00000000_00000001_00110000#32 = .ok (.lutRead 0x130#9) := by decide
theorem test_decode_rsReset : decode 0b00010000_00000000_00000000_00000000#32 = .ok .rsReset := by decide
theorem test_decode_setSrcRate :
    decode 0b00010001_00011011_01001111_01001101#32 = .ok (.setSrcRate 1789773#24) := by decide
theorem test_decode_setDstRate :
    decode 0b00010010_00000000_10111011_10000000#32 = .ok (.setDstRate 48000#24) := by decide
theorem test_decode_getSrcRate : decode 0b00010011_00000000_00000000_00000000#32 = .ok .getSrcRate := by decide
theorem test_decode_getDstRate : decode 0b00010100_00000000_00000000_00000000#32 = .ok .getDstRate := by decide
theorem test_decode_feed : decode 0b00010101_00000000_11111111_00111000#32 = .ok (.feed (bits16 (-200))) := by decide
theorem test_decode_pending : decode 0b00010110_00000000_00000000_00000000#32 = .ok .pending := by decide
theorem test_decode_pop : decode 0b00010111_00000000_00000000_00000000#32 = .ok .pop := by decide
theorem test_decode_readStatus : decode 0b00110000_00000000_00000000_00000000#32 = .ok .readStatus := by decide
theorem test_decode_readFaultInfo : decode 0b00110001_00000000_00000000_00000000#32 = .ok .readFaultInfo := by decide

/-- Section 3.1: the first illegal and reserved words of the table. -/
theorem test_decode_refusals :
    [0x04000000#32, 0x7F123456#32, 0x02000001#32, 0x15010000#32, 0x30000001#32].map (fun w => (decode w).toOption)
      = List.replicate 5 none := by decide

/-- R49: the S16 operand's value is signed. -/
theorem test_sample_value : sampleValue 0x8000#16 = -32768 ∧ sampleValue 0x7FFF#16 = 32767 := by decide

/-- R10: sat16 saturates. -/
theorem test_sat16 : sat16 40000 = 32767 ∧ sat16 (-40000) = -32768 ∧ sat16 (-13108) = -13108 := by decide

/-! ### States -/

/-- Right after the power-on event under `c`, with a chosen draw for what is unspecified. -/
def powered (c : Cfg) : State where
  cfg := c
  ct := []
  palBuilt := false
  rsReady := false
  faulted := false
  cause := .none
  faultInfo := 0#32
  srcRate := c.srcRate0
  dstRate := c.dstRate0
  acc := 0x1ABCDEF#25
  hist := List.replicate c.histLen 0x7777#16
  q := []
  out := []
  inMem := []
  pending := []
  responses := []
  hostReads := []
  draws := 1
  epoch := 0

/-- TC-F1 and TC-R1 at power-on. -/
def start : State := powered tcR1

/-- The table built, the frame of section 3.3's first row in IN. -/
def built : State :=
  { start with
    ct := Memory.writeAll [] (tableWrites tcR1)
    palBuilt := true
    inMem := [(0, 0x0000#16), (1, 0x0041#16), (2, 0x0130#16), (3, 0x00E0#16)] }

/-- As `built`, with the third row's bad cell at IN address 3. -/
def badFrame : State :=
  { built with inMem := [(0, 0x0000#16), (1, 0x0041#16), (2, 0x0130#16), (3, 0x0200#16)], out := [(2, 0x1234#16)] }

/-- V-R1 after RS_RESET and FEED 10. -/
def fedTen : State := { start with rsReady := true, acc := 2#25, hist := [10#16, 0#16] }

/-- V-R1 after RS_RESET. -/
def justReset : State := { start with rsReady := true, acc := 0#25, hist := [0#16, 0#16] }

/-- V-R1 after FEED 20. -/
def fedTwenty : State := { start with rsReady := true, acc := 1#25, hist := [20#16, 10#16], q := [⟨20#16, 20#16⟩] }

/-- P7 after FEED 1: Q holds two of its four pairs. -/
def halfFull : State :=
  { powered tcR3 with rsReady := true, acc := 1#25, hist := [1#16, 0#16], q := [⟨0#16, 0#16⟩, ⟨0#16, 0#16⟩] }

/-- A block stopped by the word 0x7F123456. -/
def stopped : State := { start with faulted := true, cause := .illegalOpcode, faultInfo := 0x7F123456#32 }

/-- The state with one more host event presented first. -/
def presenting (s : State) (ev : HostEvent) : State := { s with pending := ev :: s.pending }

/-- A next state that meets a check. -/
def nextMeets (r : Result) (p : State → Bool) : Bool :=
  match r with
  | .next t => p t
  | _ => false

/-- A next state with these responses, STATUS and FAULT_INFO. -/
def shows (r : Result) (responses : List Response) (status info : U32) : Bool :=
  nextMeets r (fun t => t.responses == responses && statusWord t == status && t.faultInfo == info)

/-! ### Palette Synthesizer (section 3.2) -/

theorem test_scale8_ties_round_up :
    scale8 1000 6#8 750 = 5#8 ∧ scale8 1000 250#8 794 = 199#8 ∧ scale8 1000 100#8 905 = 91#8 ∧ scale8 2 3#8 1 = 2#8 := by
  decide
theorem test_scale8_saturates :
    scale8 1000 252#8 1239 = 255#8 ∧ scale8 1000 255#8 1277 = 255#8 ∧ scale8 1000 124#8 915 = 113#8
      ∧ scale8 1000 1#8 101 = 0#8 := by decide
theorem test_entries :
    entry tcR1 0x040#9 = 0x9A715C#24 ∧ entry tcR1 0x130#9 = 0xE4FFFF#24 ∧ entry tcR1 0x186#9 = 0x040601#24
      ∧ entry tcR1 0x1C6#9 = 0x050505#24 ∧ entry tcR1 0x000#9 = 0x7C7C7C#24 := by decide +kernel

theorem test_build_writes_the_table :
    nextMeets (exec .build start) (fun t => statusWord t == 0x00000001#32 && ctRead t 0x040 == 0x9A715C#24
      && ctRead t 0x0E0 == 0xFDF3A2#24 && t.responses == [⟨false, 0#32⟩]) = true := by decide +kernel
theorem test_build_twice_faults : shows (exec .build built) [⟨true, 0#32⟩] 0x00000405#32 0#32 = true := by decide +kernel

theorem test_lutRead_answers : shows (exec (.lutRead 0x130#9) built) [⟨false, 0x00E4FFFF#32⟩] 0x00000001#32 0#32 = true := by
  decide +kernel
theorem test_lutRead_before_build : shows (exec (.lutRead 5#9) start) [⟨true, 0#32⟩] 0x00000304#32 5#32 = true := by decide

/-! ### Frame Converter (section 3.3) -/

theorem test_pack15 :
    pack15 0x123456#24 = 0x08CA#16 ∧ pack15 0x808080#24 = 0x4210#16 ∧ pack15 0x00F800#24 = 0x03E0#16
      ∧ pack15 0x0000F8#24 = 0x001F#16 := by decide

theorem test_convert_writes_logical_pixels :
    nextMeets (exec .convert built) (fun t =>
      t.out == [(0, 0x3DEF#16), (1, 0x0017#16), (3, 0x73FF#16), (4, 0x7FD4#16)] && t.responses == [⟨false, 0#32⟩]
        && statusWord t == 0x00000001#32) = true := by decide +kernel
theorem test_convert_bad_cell :
    shows (exec .convert badFrame) [⟨true, 0#32⟩] 0x00000505#32 0x00000003#32 = true
      ∧ nextMeets (exec .convert badFrame) (fun t => outRead t 2 == 0x1234#16) = true := by decide +kernel

/-! ### Audio Resampler Bridge (section 3.4) -/

theorem test_rsReset_clears :
    nextMeets (exec .rsReset fedTwenty) (fun t => t.acc == 0#25 && t.hist == [0#16, 0#16] && t.q == []
      && statusWord t == 0x00000002#32 && t.srcRate == 3#24) = true := by decide
theorem test_setSrcRate_unreadies :
    nextMeets (exec (.setSrcRate 3#24) fedTwenty) (fun t => t.srcRate == 3#24 && statusWord t == 0#32
      && t.acc == 1#25 && t.q == [⟨20#16, 20#16⟩]) = true := by decide
theorem test_setSrcRate_zero_faults :
    shows (exec (.setSrcRate 0#24) start) [⟨true, 0#32⟩] 0x00000704#32 0x11000000#32 = true := by decide
theorem test_setDstRate_unreadies :
    nextMeets (exec (.setDstRate 4#24) fedTwenty) (fun t => t.dstRate == 4#24 && t.srcRate == 3#24 && statusWord t == 0#32)
      = true := by decide
theorem test_setDstRate_zero_faults :
    shows (exec (.setDstRate 0#24) fedTen) [⟨true, 0#32⟩] 0x00000706#32 0x12000000#32 = true := by decide
theorem test_getSrcRate : shows (exec .getSrcRate fedTen) [⟨false, 3#32⟩] 2#32 0#32 = true := by decide
theorem test_getDstRate : shows (exec .getDstRate fedTen) [⟨false, 2#32⟩] 2#32 0#32 = true := by decide
theorem test_feed_emits_in_order :
    nextMeets (exec (.feed 100#16) { powered tcR2 with rsReady := true, acc := 0#25, hist := [0#16, 0#16] }) (fun t =>
      t.q == [⟨40#16, 40#16⟩, ⟨80#16, 80#16⟩] && t.acc == 1#25 && t.hist == [100#16, 0#16]) = true := by decide
theorem test_feed_overflow_changes_nothing :
    nextMeets (exec (.feed 2#16) halfFull) (fun t => statusWord t == 0x00000806#32 && t.faultInfo == 2#32
      && t.acc == 1#25 && t.hist == [1#16, 0#16] && t.q == halfFull.q && t.responses == [⟨true, 0#32⟩]) = true := by decide
theorem test_feed_before_reset : shows (exec (.feed 0#16) start) [⟨true, 0#32⟩] 0x00000604#32 0#32 = true := by decide
theorem test_pending_counts : shows (exec .pending fedTwenty) [⟨false, 1#32⟩] 2#32 0#32 = true := by decide
theorem test_pop_answers_left_low :
    nextMeets (exec .pop { start with q := [⟨0x1122#16, 0x3344#16⟩, ⟨5#16, 5#16⟩] }) (fun t =>
      t.responses == [⟨false, 0x33441122#32⟩] && t.q == [⟨5#16, 5#16⟩]) = true := by decide
theorem test_pop_empty_faults : shows (exec .pop start) [⟨true, 0#32⟩] 0x00000904#32 0#32 = true := by decide

/-! ### Status and dispatch (sections 3.1 and 4) -/

theorem test_readStatus_while_faulted :
    shows (step (presenting { start with faulted := true, cause := .paletteNotBuilt } (.command 0x30000000#32)))
      [⟨false, 0x00000304#32⟩] 0x00000304#32 0#32 = true := by decide
theorem test_readFaultInfo_while_faulted :
    shows (step (presenting stopped (.command 0x31000000#32))) [⟨false, 0x7F123456#32⟩] 0x00000104#32 0x7F123456#32
      = true := by decide
theorem test_reserved_status_word_refused_while_faulted :
    shows (step (presenting stopped (.command 0x30000001#32))) [⟨true, 0#32⟩] 0x00000104#32 0x7F123456#32 = true := by decide
theorem test_reserved_bits_outrank_state :
    shows (step (presenting start (.command 0x02000001#32))) [⟨true, 0#32⟩] 0x00000204#32 0x02000001#32 = true := by decide
theorem test_fetch_word_runs_next :
    shows (step (start.withFetchWord 32 0x11FFFFFF)) [⟨false, 0#32⟩] 0#32 0#32 = true := by decide

/-! ### Assembler (section 3.1) and byte view (R37) -/

theorem test_assembler_lines :
    assemble "FEED -32768".toList = some [0x15008000#32] ∧ assemble "FEED 0xff38".toList = some [0x1500FF38#32]
      ∧ assemble "LUT_READ 511 ; last".toList = some [0x030001FF#32]
      ∧ assemble "SET_SRC_RATE 16777215".toList = some [0x11FFFFFF#32] ∧ assemble "POP 1".toList = none := by
  decide +kernel
theorem test_pop_word_bytes : [0, 1, 2, 3].map (wordByte 0x33441122#32) = [0x22#8, 0x11#8, 0x44#8, 0x33#8] := by decide

/-! ### Witnesses: for each statement with hypotheses, states and operands that meet them

A statement about `s` with `s.pending = ev :: rest` has the witness `presenting s ev`. -/

/-- A state meets every part of the invariant that a power-on state of `c` meets, whatever its CT, once built, holds. -/
theorem inv_of_parts {s : State} (hs : s.srcRate ≠ 0#24) (hd : s.dstRate ≠ 0#24) (hh : s.hist.length = s.cfg.histLen)
    (hq : s.q.length ≤ s.cfg.qcap) (ha : s.rsReady = true → s.acc.toNat < s.srcRate.toNat) (hm : s.MemoriesOk)
    (hf : s.faulted = false) (hc : s.cause = .none) (hi : s.faultInfo = 0#32) (hp : ∀ p ∈ s.q, p.left = p.right)
    (ht : s.TableOk) : s.Inv :=
  ⟨⟨hs, hd, hh, hq, ha⟩, hm, ⟨by simp [hf, hc], fun _ => hi⟩, hp, ht⟩

theorem witness_inv_start : start.Inv :=
  inv_of_parts (by decide) (by decide) (by decide) (by decide) (by decide)
    ⟨by decide, by decide, by decide, by decide, by decide, by decide⟩ rfl rfl rfl (by decide) (fun h => by cases h)

theorem witness_inv_fedTwenty : fedTwenty.Inv :=
  inv_of_parts (by decide) (by decide) (by decide) (by decide) (by decide)
    ⟨by decide, by decide, by decide, by decide, by decide, by decide⟩ rfl rfl rfl (by decide) (fun h => by cases h)

theorem witness_inv_halfFull : halfFull.Inv :=
  inv_of_parts (by decide) (by decide) (by decide) (by decide) (by decide)
    ⟨by decide, by decide, by decide, by decide, by decide, by decide⟩ rfl rfl rfl (by simp [halfFull]) (fun h => by cases h)

theorem witness_inv_built : built.Inv :=
  inv_of_parts (by decide) (by decide) (by decide) (by decide) (by decide)
    ⟨Memory.writeAll_wf List.Pairwise.nil _, Memory.writeAll_within (by simp) (tableWrites_range _), by decide, by decide,
      by decide, by decide⟩
    rfl rfl rfl (by decide) (fun _ i => ctRead_of_tableWrites rfl i)

/-- The cells of `built`'s frame are indices; `badFrame`'s first three are. -/
theorem built_frame : ∀ y, y < 2 → ∀ x, x < 2 → badCell (inRead built (y * 2 + x)) = false := by decide +kernel

theorem built_no_bad : firstBad built = none :=
  (firstBad_none built).2 fun x y hx hy => built_frame y hy x hx

theorem bad_at_three : firstBad badFrame = some 3 :=
  firstBad_some.2 ⟨by decide, by decide +kernel, by decide +kernel⟩

theorem witness_EncodeOfDecode : decode 0x030001FF#32 = .ok (.lutRead 511#9) := by decide

theorem witness_UnassignedOpcodesAreIllegal :
    (presenting start (.command 0xFFFFFFFF#32)).faulted = false ∧ Unassigned (opField 0x00FFFFFF#32).toNat
      ∧ Unassigned (opField 0x04000000#32).toNat ∧ Unassigned (opField 0x0F000000#32).toNat
      ∧ Unassigned (opField 0x18000000#32).toNat ∧ Unassigned (opField 0x2F000000#32).toNat
      ∧ Unassigned (opField 0x32000000#32).toNat ∧ Unassigned (opField 0xFFFFFFFF#32).toNat := by
  unfold Unassigned; decide

/-- The lowest and highest reserved bit of forms Z, I9 and S16. -/
theorem witness_ReservedBitsFault :
    start.faulted = false
      ∧ [(0x01#8, Form.z, 0x01000001#32), (0x31#8, .z, 0x31800000#32), (0x03#8, .i9, 0x03000200#32),
          (0x03#8, .i9, 0x03800000#32), (0x15#8, .s16, 0x15010000#32), (0x15#8, .s16, 0x15800000#32)].all (fun c =>
          rows.any (fun r => r.op == c.1 && r.form == c.2.1) && c.1 == opField c.2.2
            && c.2.2 &&& reservedBits c.2.1 != 0#32) = true := by decide

theorem witness_StepRunsTheDecodedCommand :
    (decode 0x02000000#32 = .ok .convert ∧ start.faulted = false)
      ∧ (decode 0x30000000#32 = .ok .readStatus ∧ decode 0x31000000#32 = .ok .readFaultInfo ∧ stopped.faulted = true) := by
  decide

theorem witness_FaultedBlockRefuses :
    stopped.faulted = true ∧ (0x10000000#32 : U32) ≠ 0x30000000#32 ∧ (0x10000000#32 : U32) ≠ 0x31000000#32
      ∧ (∃ t, step (presenting stopped (.command 0x10000000#32)) = .next t)
      ∧ (∃ t, step (presenting stopped (.writeIn 0 0#16)) = .next t)
      ∧ (presenting stopped .powerOn).pending = [.powerOn] :=
  ⟨by decide, by decide, by decide, ⟨_, rfl⟩, ⟨_, rfl⟩, rfl⟩

/-- A state, a word, and the cause the word records, one for each cause: the hypotheses of FaultPriority, clause by clause. -/
def causeCases : List (State × U32 × Cause) :=
  [(start, 0x7F123456#32, .illegalOpcode), (start, 0x02000001#32, .reservedBits), (start, 0x02000000#32, .paletteNotBuilt),
   (start, 0x03000005#32, .paletteNotBuilt), (built, 0x01000000#32, .paletteRebuild), (badFrame, 0x02000000#32, .indexRange),
   (start, 0x15000000#32, .rsNotReady), (start, 0x11000000#32, .rateZero), (start, 0x12000000#32, .rateZero),
   (halfFull, 0x15000002#32, .queueOverflow), (start, 0x17000000#32, .queueEmpty)]

/-- Every cause is recorded by some word from a state with none: FaultsArePrecise and RecordedCauseMeetsItsRow, cause by cause. -/
theorem witness_RecordedCauseMeetsItsRow :
    causeCases.all (fun c => c.1.faulted == false && nextMeets (step (presenting c.1 (.command c.2.1)))
      (fun t => t.faulted && t.cause == c.2.2)) = true := by decide +kernel

theorem witness_FaultsArePrecise :
    (start.faulted = false ∧ ∃ t, step (presenting start (.command 0x17000000#32)) = .next t ∧ t.faulted = true
        ∧ t.cause ≠ .indexRange)
      ∧ (badFrame.faulted = false ∧ ∃ t, step (presenting badFrame (.command 0x02000000#32)) = .next t ∧ t.faulted = true) :=
  ⟨⟨rfl, _, rfl, rfl, by decide⟩, rfl, _, exec_convert_bad rfl bad_at_three, rfl⟩

theorem witness_FaultPriority :
    (stopped.faulted = true ∧ readsStatus 0x00000000#32 = false)
      ∧ (start.faulted = false ∧ decode 0x00000000#32 = .error .illegalOpcode)
      ∧ (start.faulted = false ∧ decode 0x02000001#32 = .error .reservedBits)
      ∧ (start.palBuilt = false ∧ decode 0x02000000#32 = .ok .convert ∧ decode 0x03000005#32 = .ok (.lutRead 5#9))
      ∧ (built.palBuilt = true ∧ decode 0x01000000#32 = .ok .build)
      ∧ (start.rsReady = false ∧ decode 0x15000000#32 = .ok (.feed 0#16))
      ∧ (start.q = [] ∧ decode 0x17000000#32 = .ok .pop)
      ∧ (decode 0x11000000#32 = .ok (.setSrcRate 0#24) ∧ decode 0x12000000#32 = .ok (.setDstRate 0#24))
      ∧ (halfFull.faulted = false ∧ halfFull.rsReady = true ∧ halfFull.srcRate ≠ 0#24
          ∧ halfFull.cfg.qcap < halfFull.q.length + pairCount halfFull)
      ∧ (badFrame.faulted = false ∧ badFrame.palBuilt = true ∧ badCell (inRead badFrame (inAddr badFrame.cfg 1 1)) = true) := by
  decide +kernel

theorem witness_EveryCommandAnswersOnce :
    start.srcRate ≠ 0#24 ∧ stopped.srcRate ≠ 0#24 ∧ stopped.faulted = true ∧ readsStatus 0x30000000#32 = true := by decide

theorem witness_ScaleIsExactRoundThenClamp : 1 ≤ 1 ∧ 1 ≤ tcR1.fden := by decide

theorem witness_BuildWritesTheTableOnce : start.palBuilt = false ∧ built.palBuilt = true := by decide

theorem witness_LutReadAnswersTheEntry :
    (built.palBuilt = true ∧ ctRead built (511#9 : U9).toNat = 0#24 ∧ ctRead built (0#9 : U9).toNat = 0x7C7C7C#24)
      ∧ start.palBuilt = false := by decide +kernel

theorem witness_BuiltTableAnswersEntry : built.Inv ∧ built.palBuilt = true := ⟨witness_inv_built, rfl⟩

theorem witness_TableIsBuiltOnceAndKept :
    (start.palBuilt = false ∧ nextMeets (step (presenting start (.command 0x01000000#32))) (fun t => t.palBuilt) = true)
      ∧ (built.palBuilt = true ∧ ∃ t, step (presenting built (.command 0x02000000#32)) = .next t)
      ∧ (∃ t, step (presenting built .powerOn) = .next t) :=
  ⟨⟨rfl, by decide⟩, ⟨rfl, _, exec_convert_good rfl built_no_bad⟩, _, rfl⟩

theorem witness_ConvertTranslatesTheFrame :
    (built.palBuilt = true ∧ FrameOk built)
      ∧ (badFrame.palBuilt = true ∧ 1 < badFrame.cfg.width ∧ 1 < badFrame.cfg.height
          ∧ badCell (inRead badFrame (1 * badFrame.cfg.width + 1)) = true
          ∧ ∀ b, b < 1 * badFrame.cfg.width + 1 → badCell (inRead badFrame b) = false)
      ∧ start.palBuilt = false :=
  ⟨⟨rfl, fun x y hx hy => built_frame y hy x hx⟩, ⟨rfl, by decide, by decide, by decide +kernel, by decide +kernel⟩, rfl⟩

/-- A frame so wide that its first bad cell, at (0, 1), has an IN address that does not fit 32 bits. -/
def wideCfg : Cfg := ⟨{ good with width := 2 ^ 32, stride := 2 ^ 32 }, by decide⟩

/-- Index 0 in the first row, and a bad cell first in the second: the frame's first `n` cells and the one after. -/
def rowThenBad (n : Nat) : Memory 16 :=
  Memory.writeAll [] ((List.range (n + 1)).map fun a => (a, if a = n then 0x0200#16 else 0#16))

theorem rowThenBad_get? (n a : Nat) (h : a ≤ n) :
    (rowThenBad n).get? a = some (if a = n then 0x0200#16 else 0#16) :=
  Memory.get?_writeAll_map [] (fun a => a) (fun a => if a = n then 0x0200#16 else 0#16)
    (List.mem_range.2 (by omega)) (fun _ _ h => by rw [h])

/-- The table built, and that frame in IN. -/
def wideFrame : State := { powered wideCfg with palBuilt := true, inMem := rowThenBad (2 ^ 32) }

theorem wideFrame_cell (a : Nat) (h : a ≤ 2 ^ 32) : inRead wideFrame a = if a = 2 ^ 32 then 0x0200#16 else 0#16 := by
  rw [inRead, wideFrame, rowThenBad_get? _ _ h, Option.getD_some]

theorem witness_IndexRangeLeavesDraws :
    (badFrame.palBuilt = true ∧ 1 < badFrame.cfg.width ∧ 1 < badFrame.cfg.height
        ∧ badCell (inRead badFrame (1 * badFrame.cfg.width + 1)) = true
        ∧ ∀ b, b < 1 * badFrame.cfg.width + 1 → badCell (inRead badFrame b) = false)
      ∧ (wideFrame.palBuilt = true ∧ 0 < wideFrame.cfg.width ∧ 1 < wideFrame.cfg.height
        ∧ badCell (inRead wideFrame (1 * wideFrame.cfg.width + 0)) = true
        ∧ (∀ b, b < 1 * wideFrame.cfg.width + 0 → badCell (inRead wideFrame b) = false)
        ∧ 2 ^ 32 ≤ 1 * wideFrame.cfg.width + 0) := by
  refine ⟨⟨rfl, by decide, by decide, by decide +kernel, by decide +kernel⟩, rfl, by decide, by decide, ?_, ?_, by decide⟩
  · have hw : 1 * wideFrame.cfg.width + 0 = 2 ^ 32 := by decide
    rw [hw, wideFrame_cell _ (Nat.le_refl _), if_pos rfl]; decide
  · have hw : 1 * wideFrame.cfg.width + 0 = 2 ^ 32 := by decide
    intro b hb
    rw [hw] at hb
    rw [wideFrame_cell _ (Nat.le_of_lt hb), if_neg (Nat.ne_of_lt hb)]; decide

theorem witness_ConvertDependsOnlyOnFrame :
    built.Inv ∧ (∃ t, step (presenting built (.command 0x10000000#32)) = .next t ∧ t.cfg = built.cfg ∧ t.palBuilt = true
      ∧ ∀ a, inRead t a = inRead built a) ∧ FrameOk built ∧ ∃ t, exec .convert built = .next t :=
  ⟨witness_inv_built, ⟨_, rfl, rfl, rfl, fun _ => rfl⟩, fun x y hx hy => built_frame y hy x hx,
    _, exec_convert_good rfl built_no_bad⟩

theorem witness_UniformFrameConverts :
    built.palBuilt = true ∧ (∀ i : U9, ∀ a, a < inSize tcR1 →
      inRead { built with inMem := [(0, 0#7 ++ i), (1, 0#7 ++ i), (2, 0#7 ++ i), (3, 0#7 ++ i)] } a = 0#7 ++ i) := by
  refine ⟨rfl, fun i a ha => ?_⟩
  have h : a = 0 ∨ a = 1 ∨ a = 2 ∨ a = 3 := by
    have : inSize tcR1 = 4 := rfl
    omega
  rcases h with rfl | rfl | rfl | rfl <;> rfl

theorem witness_VideoFrameReachesTheSink :
    built.Inv ∧ built.faulted = false ∧ built.palBuilt = true
      ∧ [0x0000#16, 0x0041#16, 0x0130#16, 0x01FF#16].length = inSize built.cfg
      ∧ ∀ c ∈ [0x0000#16, 0x0041#16, 0x0130#16, 0x01FF#16], badCell c = false := by
  refine ⟨witness_inv_built, rfl, rfl, by decide, fun c hc => ?_⟩
  simp only [List.mem_cons, List.not_mem_nil, or_false] at hc
  rcases hc with rfl | rfl | rfl | rfl <;> decide

theorem witness_SetSrcRateStoresAndUnreadies : (1#24 : U24) ≠ 0#24 ∧ (0xFFFFFF#24 : U24) ≠ 0#24 ∧ (0#24 : U24) = 0#24 := by decide

theorem witness_SetDstRateStoresAndUnreadies : (1#24 : U24) ≠ 0#24 ∧ (0xFFFFFF#24 : U24) ≠ 0#24 ∧ (0#24 : U24) = 0#24 := by decide

/-- The pairs just fit (Q 2 of 4 full, then n = 2), and just do not (n = 3). -/
theorem witness_FeedRunsTheEmissionLoop :
    (halfFull.rsReady = true ∧ halfFull.srcRate ≠ 0#24 ∧ halfFull.hist ≠ []
        ∧ { halfFull with acc := 0#25 }.q.length + (0 + halfFull.dstRate.toNat) / halfFull.srcRate.toNat = halfFull.cfg.qcap)
      ∧ start.rsReady = false
      ∧ (halfFull.q.length ≤ halfFull.cfg.qcap
          ∧ halfFull.q.length + (halfFull.acc.toNat + halfFull.dstRate.toNat) / halfFull.srcRate.toNat
            = halfFull.cfg.qcap + 1) := by decide

theorem witness_FeedStopsOnZeroSourceRate :
    { fedTen with srcRate := 0#24 }.rsReady = true ∧ { fedTen with srcRate := 0#24 }.srcRate = 0#24 := by decide

theorem witness_FeedCountIsBounded :
    fedTen.rsReady = true ∧ fedTen.acc.toNat < fedTen.srcRate.toNat ∧ fedTen.faulted = false
      ∧ nextMeets (exec (.feed 20#16) fedTen) (fun t => !t.faulted) = true := by decide

/-- Six samples under TC-R1 fill Q exactly; and a run with a POP between its FEEDs. -/
theorem witness_FeedsConserveSamples :
    (start.faulted = false ∧ start.srcRate ≠ 0#24
      ∧ [10#16, 20#16, 30#16, 40#16, 50#16, 60#16].length * start.dstRate.toNat / start.srcRate.toNat = start.cfg.qcap)
      ∧ ([.feed 10#16, .feed 20#16, .pending, .pop, .feed 30#16].all keepsSession = true
          ∧ nextMeets (presentAll (.rsReset :: [.feed 10#16, .feed 20#16, .pending, .pop, .feed 30#16]) start)
              (fun t => !t.faulted) = true) := by decide

/-- TC-R1's Q is large enough for every tick. -/
theorem witness_AudioTicksConserveSamples :
    start.faulted = false ∧ start.srcRate ≠ 0#24 ∧ start.dstRate.toNat ≤ start.cfg.qcap * start.srcRate.toNat := by decide

theorem witness_ResetMakesFeedsReproducible :
    start.cfg = fedTwenty.cfg ∧ start.srcRate = fedTwenty.srcRate ∧ start.dstRate = fedTwenty.dstRate
      ∧ start.faulted = false ∧ fedTwenty.faulted = false
      ∧ (∃ t, presentAll (.rsReset :: [10#16, 20#16].map .feed) start = .next t)
      ∧ ∃ t, presentAll (.rsReset :: [10#16, 20#16].map .feed) fedTwenty = .next t :=
  ⟨rfl, rfl, rfl, rfl, rfl, ⟨_, rfl⟩, _, rfl⟩

theorem witness_PendingCountsPairs :
    start.q.length ≤ start.cfg.qcap ∧ { start with q := List.replicate 4 ⟨1#16, 1#16⟩ }.q.length ≤ start.cfg.qcap := by decide

theorem witness_PopAnswersTheOldestPair : fedTwenty.q = ⟨20#16, 20#16⟩ :: [] ∧ start.q = [] := by decide

theorem witness_ResamplerControlStates :
    fedTen.faulted = false ∧ (1#24 : U24) ≠ 0#24
      ∧ [HostEvent.powerOn, .command (encode .rsReset), .command (encode (.setSrcRate 1#24)),
          .command (encode (.setDstRate 1#24)), .command (encode (.feed 20#16)), .writeIn 3 0#16].all
            (fun ev => nextMeets (step (presenting fedTen ev)) (fun _ => true)) = true := by decide

/-- A step that leaves the block READY, a FEED that runs, and a FEED that faults. -/
theorem witness_AccumulatorNeverOverflows :
    (start.Inv ∧ nextMeets (step (presenting start (.command 0x10000000#32))) (fun t => t.rsReady) = true)
      ∧ (fedTwenty.Inv ∧ fedTwenty.rsReady = true
          ∧ nextMeets (exec (.feed 30#16) fedTwenty) (fun t => !t.faulted) = true)
      ∧ (halfFull.Inv ∧ halfFull.rsReady = true
          ∧ nextMeets (exec (.feed 2#16) halfFull) (fun t => t.faulted) = true) :=
  ⟨⟨witness_inv_start, by decide⟩, ⟨witness_inv_fedTwenty, rfl, by decide⟩, witness_inv_halfFull, rfl, by decide⟩

/-- A tick that pushes one pair, and one that pushes none (ACC = 0). -/
theorem witness_AudioTickDrains :
    (fedTen.faulted = false ∧ fedTen.rsReady = true ∧ fedTen.q = [] ∧ fedTen.hist ≠ []
      ∧ fedTen.acc.toNat < fedTen.srcRate.toNat ∧ fedTen.dstRate.toNat ≤ fedTen.cfg.qcap * fedTen.srcRate.toNat
      ∧ (fedTen.acc.toNat + fedTen.dstRate.toNat) / fedTen.srcRate.toNat = 1)
      ∧ (justReset.faulted = false ∧ justReset.rsReady = true ∧ justReset.q = [] ∧ justReset.hist ≠ []
      ∧ justReset.acc.toNat < justReset.srcRate.toNat
      ∧ justReset.dstRate.toNat ≤ justReset.cfg.qcap * justReset.srcRate.toNat
      ∧ (justReset.acc.toNat + justReset.dstRate.toNat) / justReset.srcRate.toNat = 0) := by decide

/-- No fault yet; and a POP that faults, after which the host does three more things. -/
theorem witness_ReadFaultInfoAnswers :
    (start.Inv ∧ start.faulted = false)
      ∧ inSize start.cfg ≤ 2 ^ 32 ∧ HostEvent.powerOn ∉ [.command 0x10000000#32, .writeIn 3 1#16, .command 0x30000000#32]
      ∧ ∃ t u, step (presenting start (.command 0x17000000#32)) = .next t ∧ t.faulted = true
          ∧ hostDoAll [.command 0x10000000#32, .writeIn 3 1#16, .command 0x30000000#32] t = .next u :=
  ⟨⟨witness_inv_start, rfl⟩, by decide, by decide, _, _, rfl, rfl, rfl⟩

theorem witness_StepKeepsInv : built.Inv ∧ start.Inv ∧ ∃ t, step start = .next t :=
  ⟨witness_inv_built, witness_inv_start, _, rfl⟩

theorem witness_StepsStopOnlyOnHostAddresses : start.Inv := witness_inv_start

theorem witness_PowerOnEvent : (presenting fedTwenty .powerOn).pending = .powerOn :: [] := rfl

/-- Two power-on states with different draws. -/
theorem witness_UnspecifiedStateIsNeverRead :
    start.Agree { start with acc := 7#25, hist := [1#16, 2#16], ct := [(0, 5#24)], out := [(0, 5#16)], draws := 9, epoch := 8 }
      ∧ start.acc ≠ 7#25 :=
  ⟨⟨rfl, rfl, rfl, rfl, rfl, rfl, rfl, rfl, rfl, rfl, rfl, rfl, by simp [start, powered], by simp [start, powered],
    by simp [start, powered]⟩, by decide⟩

theorem witness_ConfigurationIsFixed : ∃ t, step (presenting start .powerOn) = .next t := ⟨_, rfl⟩

theorem witness_EachMemoryHasOneWriter :
    (∃ t, step (presenting start (.command 0x10000000#32)) = .next t) ∧ (∃ t, step (presenting start .powerOn) = .next t)
      ∧ (∃ t, step (presenting start (.writeIn 3 1#16)) = .next t) := ⟨⟨_, rfl⟩, ⟨_, rfl⟩, _, rfl⟩

/-- The last address of each space, and the first one past it. -/
theorem witness_HostAccesses :
    3 < inSize start.cfg ∧ inSize start.cfg ≤ 4 ∧ 8 < outSize start.cfg ∧ outSize start.cfg ≤ 9 := by decide

theorem witness_IdleBlockHoldsState : start.pending = [] := rfl

theorem witness_ReadsHaveNoSideEffect :
    (∃ t, exec .pending start = .next t) ∧ built.palBuilt = true ∧ ∃ t, exec (.lutRead 0#9) built = .next t :=
  ⟨⟨_, rfl⟩, rfl, _, exec_lutRead_built 0#9 rfl⟩

theorem witness_PopWordInterleavesChannels : fedTwenty.q = ⟨20#16, 20#16⟩ :: [] := rfl

theorem witness_BootSequenceReadies :
    start.faulted = false ∧ start.palBuilt = false
      ∧ (∀ p ∈ (some (1#24, 0xFFFFFF#24) : Option (U24 × U24)), p.1 ≠ 0#24 ∧ p.2 ≠ 0#24)
      ∧ (∀ p ∈ (none : Option (U24 × U24)), p.1 ≠ 0#24 ∧ p.2 ≠ 0#24) :=
  ⟨rfl, rfl, fun p hp => by cases hp; decide, fun p hp => by cases hp⟩

end Sys2Proof.Tests
end

section
/-! The encoding law of spec/30_encoding.md R48 to R52, both ways: a command's word decodes to it, and a word that decodes
is the word of its command. -/

namespace Sys2Proof

theorem opField_or_operand {k : Nat} (op : U32) (v : BitVec k) (hk : k ≤ 24) :
    opField (op ||| v.setWidth 32) = opField op := by
  apply BitVec.eq_of_getLsbD_eq
  intro j _
  simp [opField, v.getLsbD_of_ge (24 + j) (by omega)]

theorem operand_or_operand {k : Nat} {op : U32} (v : BitVec k) (hk : k ≤ 32) (hop : BitVec.extractLsb' 0 k op = 0#k) :
    BitVec.extractLsb' 0 k (op ||| v.setWidth 32) = v := by
  apply BitVec.eq_of_getLsbD_eq
  intro j hj
  have hzero : op.getLsbD j = false := by simpa [hj] using congrArg (·.getLsbD j) hop
  rw [BitVec.getLsbD_extractLsb', Nat.zero_add, BitVec.getLsbD_or, hzero, BitVec.getLsbD_setWidth]
  simp [hj, Nat.lt_of_lt_of_le hj hk]

theorem decode_of_row {w : U32} {r : Row} (hr : rowOf w = some r) (hm : w &&& reservedBits r.form = 0#32) :
    decode w = .ok (r.read w) := by
  simp [decode, hr, hm]

/-- The row an operand is put in decides the decoding: the operand's `k` bits are free in that row. -/
theorem decode_or_operand {k : Nat} {op : U32} {r : Row} (v : BitVec k) (hk : k ≤ 24) (hr : rowOf op = some r)
    (hop : op &&& reservedBits r.form = 0#32) (hfree : ∀ j, j < k → (reservedBits r.form).getLsbD j = false) :
    decode (op ||| v.setWidth 32) = .ok (r.read (op ||| v.setWidth 32)) := by
  refine decode_of_row (by rw [rowOf, opField_or_operand op v hk]; exact hr) ?_
  rw [BitVec.and_comm, BitVec.and_or_distrib_left, BitVec.and_comm _ op, hop, BitVec.and_comm,
    Laws.operand_and_eq v _ hfree, BitVec.or_zero]

/-- R48 to R52: every command's word decodes to the command. -/
theorem decode_encode (i : Instr) : decode (encode i) = .ok i := by
  cases i with
  | lutRead idx =>
    rw [encode, decode_or_operand idx (by decide) (r := rows[2]) rfl rfl (by decide)]
    exact congrArg (Except.ok ∘ Instr.lutRead) (operand_or_operand idx (by decide) rfl)
  | setSrcRate rate =>
    rw [encode, decode_or_operand rate (by decide) (r := rows[4]) rfl rfl (by decide)]
    exact congrArg (Except.ok ∘ Instr.setSrcRate) (operand_or_operand rate (by decide) rfl)
  | setDstRate rate =>
    rw [encode, decode_or_operand rate (by decide) (r := rows[5]) rfl rfl (by decide)]
    exact congrArg (Except.ok ∘ Instr.setDstRate) (operand_or_operand rate (by decide) rfl)
  | feed smp =>
    rw [encode, decode_or_operand smp (by decide) (r := rows[8]) rfl rfl (by decide)]
    exact congrArg (Except.ok ∘ Instr.feed) (operand_or_operand smp (by decide) rfl)
  | build | convert | rsReset | getSrcRate | getDstRate | pending | pop | readStatus | readFaultInfo => rfl

/-- What a word that decodes meets: its row's opcode, and 0 in the row's reserved bits (R51). -/
theorem decode_ok {w : U32} {i : Instr} (h : decode w = .ok i) :
    ∃ r ∈ rows, r.op = opField w ∧ w &&& reservedBits r.form = 0#32 ∧ i = r.read w := by
  unfold decode at h
  split at h
  · cases h
  · next r hr =>
    split at h
    · next hm =>
      exact ⟨r, List.mem_of_find?_eq_some hr, by simpa using List.find?_some hr, hm, (Except.ok.inj h).symm⟩
    · cases h

/-- A word is its row's match and its operand's `k` bits, when the mask covers the bits between. -/
theorem word_of_fields (k : Nat) {w : U32} {r : Row} (hop : r.op = opField w) (hm : w &&& reservedBits r.form = 0#32)
    (hmask : ∀ j < 24, k ≤ j → (reservedBits r.form).getLsbD j = true) :
    rowMatch r ||| (BitVec.extractLsb' 0 k w).setWidth 32 = w := by
  apply BitVec.eq_of_getLsbD_eq
  intro j hj
  have hres : (w.getLsbD j && (reservedBits r.form).getLsbD j) = false := by
    rw [← BitVec.getLsbD_and, hm, BitVec.getLsbD_zero]
  rcases Nat.lt_or_ge j 24 with hlow | hhigh
  · rcases Nat.lt_or_ge j k with hk | hk
    · simp [rowMatch, hj, hlow, hk]
    · rw [hmask j hlow hk, Bool.and_true] at hres
      simp [rowMatch, hlow, hres]
  · have hback : 24 + (j - 24) = j := by omega
    have hk : j - 24 < 8 := by omega
    simp [rowMatch, hop, opField, hj, hk, hback, Nat.not_lt.2 hhigh]

/-- A row without an operand has one word, its match. -/
theorem encode_of_plain {w : U32} {r : Row} {i : Instr} (hop : r.op = opField w) (hm : w &&& reservedBits r.form = 0#32)
    (hz : r.form = .z) (henc : encode i = rowMatch r) : encode i = w := by
  have hmask : ∀ j < 24, 0 ≤ j → (reservedBits r.form).getLsbD j = true := by rw [hz]; decide
  have hw := word_of_fields 0 hop hm hmask
  simpa [henc] using hw

/-- A row with an operand of `k` bits has one word for each operand, its match with the operand. -/
theorem encode_of_operand (k : Nat) {w : U32} {r : Row} {i : Instr} (hop : r.op = opField w)
    (hm : w &&& reservedBits r.form = 0#32) (hmask : ∀ j < 24, k ≤ j → (reservedBits r.form).getLsbD j = true)
    (henc : encode i = rowMatch r ||| (BitVec.extractLsb' 0 k w).setWidth 32) : encode i = w :=
  henc.trans (word_of_fields k hop hm hmask)

theorem encode_read {w : U32} {r : Row} (hr : r ∈ rows) (hop : r.op = opField w)
    (hm : w &&& reservedBits r.form = 0#32) : encode (r.read w) = w := by
  simp only [rows, List.mem_cons, List.not_mem_nil, or_false] at hr
  rcases hr with rfl | rfl | rfl | rfl | rfl | rfl | rfl | rfl | rfl | rfl | rfl | rfl | rfl
  · exact encode_of_plain hop hm rfl rfl
  · exact encode_of_plain hop hm rfl rfl
  · exact encode_of_operand 9 hop hm (by decide) rfl
  · exact encode_of_plain hop hm rfl rfl
  · exact encode_of_operand 24 hop hm (by decide) rfl
  · exact encode_of_operand 24 hop hm (by decide) rfl
  · exact encode_of_plain hop hm rfl rfl
  · exact encode_of_plain hop hm rfl rfl
  · exact encode_of_operand 16 hop hm (by decide) rfl
  · exact encode_of_plain hop hm rfl rfl
  · exact encode_of_plain hop hm rfl rfl
  · exact encode_of_plain hop hm rfl rfl
  · exact encode_of_plain hop hm rfl rfl

/-- R48 to R52: a word that decodes is the word of the command it decodes to. -/
theorem encode_of_decode {w : U32} {i : Instr} (h : decode w = .ok i) : encode i = w := by
  obtain ⟨r, hr, hop, hm, rfl⟩ := decode_ok h
  exact encode_read hr hop hm

end Sys2Proof
end

section
/-! What each command's own effect and a recorded fault leave unchanged, and what a step that answers a next state can be. -/

namespace Sys2Proof.Machine

/-! ### What an update leaves unchanged -/

/-- No command writes the configuration, IN or the fault record (R32, R45, R85). -/
theorem ownEffect_frame {s u : State} {v : U32} {i : Instr} (h : OwnEffect s u v i) :
    u.cfg = s.cfg ∧ u.inMem = s.inMem ∧ u.epoch = s.epoch ∧ SameRecord s u := by
  cases i with
  | convert => obtain ⟨-, -, rfl, -⟩ := h; exact ⟨rfl, rfl, rfl, rfl, rfl, rfl⟩
  | feed _ => obtain ⟨-, -, -, rfl, -⟩ := h; exact ⟨rfl, rfl, rfl, rfl, rfl, rfl⟩
  | pop => obtain ⟨_, _, -, rfl, -⟩ := h; exact ⟨rfl, rfl, rfl, rfl, rfl, rfl⟩
  | build | lutRead _ | setSrcRate _ | setDstRate _ => obtain ⟨-, rfl, -⟩ := h; exact ⟨rfl, rfl, rfl, rfl, rfl, rfl⟩
  | rsReset | getSrcRate | getDstRate | pending | readStatus | readFaultInfo =>
    obtain ⟨rfl, -⟩ := h; exact ⟨rfl, rfl, rfl, rfl, rfl, rfl⟩

/-- No command but BUILD writes the Color Table (R18, R20). -/
theorem ownEffect_table {s u : State} {v : U32} {i : Instr} (h : OwnEffect s u v i) (hi : i ≠ .build) :
    u.palBuilt = s.palBuilt ∧ u.ct = s.ct := by
  cases i with
  | build => exact absurd rfl hi
  | convert => obtain ⟨-, -, rfl, -⟩ := h; exact ⟨rfl, rfl⟩
  | feed _ => obtain ⟨-, -, -, rfl, -⟩ := h; exact ⟨rfl, rfl⟩
  | pop => obtain ⟨_, _, -, rfl, -⟩ := h; exact ⟨rfl, rfl⟩
  | lutRead _ | setSrcRate _ | setDstRate _ => obtain ⟨-, rfl, -⟩ := h; exact ⟨rfl, rfl⟩
  | rsReset | getSrcRate | getDstRate | pending | readStatus | readFaultInfo =>
    obtain ⟨rfl, -⟩ := h; exact ⟨rfl, rfl⟩

/-- R68: the commands that start no session and change no rate leave RS_READY as it is. -/
theorem ownEffect_rsReady {s u : State} {v : U32} {i : Instr} (h : OwnEffect s u v i) (hi : keepsSession i = true) :
    u.rsReady = s.rsReady := by
  cases i with
  | rsReset | setSrcRate _ | setDstRate _ => cases hi
  | convert => obtain ⟨-, -, rfl, -⟩ := h; rfl
  | feed _ => obtain ⟨-, -, -, rfl, -⟩ := h; rfl
  | pop => obtain ⟨_, _, -, rfl, -⟩ := h; rfl
  | build | lutRead _ => obtain ⟨-, rfl, -⟩ := h; rfl
  | getSrcRate | getDstRate | pending | readStatus | readFaultInfo => obtain ⟨rfl, -⟩ := h; rfl

/-- A fault's procedure starts from a state that differs in OUT and the counter of draws alone (R66, R85). -/
theorem faultBase_frame (s : State) (c : Cause) :
    faultBase s c = { s with out := (faultBase s c).out, draws := (faultBase s c).draws } := by
  unfold faultBase
  split <;> rfl

/-- R85: a recorded fault leaves the Color Table, RS_READY, IN and the configuration as they are. -/
theorem faultBase_fields (s : State) (c : Cause) :
    (faultBase s c).cfg = s.cfg ∧ (faultBase s c).inMem = s.inMem ∧ (faultBase s c).rsReady = s.rsReady
      ∧ (faultBase s c).palBuilt = s.palBuilt ∧ ∀ i, ctRead (faultBase s c) i = ctRead s i := by
  rw [faultBase_frame]
  exact ⟨rfl, rfl, rfl, rfl, fun _ => rfl⟩

/-! ### Steps that answer a next state -/

/-- On an unfaulted block a command's word runs the command (R51). -/
theorem step_encode {s : State} {i : Instr} {rest : List HostEvent} (hf : s.faulted = false)
    (hp : s.pending = .command (encode i) :: rest) : step s = exec i { s with pending := rest } := by
  simp [step_command hp, runCommand, hf, decode_encode]

theorem step_serve {s t : State} {ev : HostEvent} {rest : List HostEvent} (hp : s.pending = ev :: rest)
    (h : step s = .next t) : serve ev { s with pending := rest } = .next t := by
  rwa [step, takeEvent, hp] at h

/-- What a word's dispatch does when it answers a next state (R51, R85, R86): the refusal after a fault, a recorded fault, or
the decoded command's own effect. -/
theorem runCommand_next {w : U32} {s t : State} (h : runCommand w s = .next t) :
    (s.faulted = true ∧ t = s.refuseAfterFault)
    ∨ (∃ c info, c ≠ .none ∧ t = (faultBase s c).raiseFault c info)
    ∨ (∃ i u v, w = encode i ∧ (s.faulted = false ∨ readsStatus w = true) ∧ OwnEffect s u v i ∧ t = u.respond v) := by
  rcases runCommand_cases w s with ⟨hf, -, he⟩ | ⟨hrun, ⟨-, he⟩ | ⟨-, he⟩ | ⟨i, hd, he⟩⟩
  · exact .inl ⟨hf, Host.Outcome.next.inj (h.symm.trans he)⟩
  · exact .inr (.inl ⟨.illegalOpcode, w, by decide, Host.Outcome.next.inj (h.symm.trans he)⟩)
  · exact .inr (.inl ⟨.reservedBits, w, by decide, Host.Outcome.next.inj (h.symm.trans he)⟩)
  · rcases exec_next (he.symm.trans h) with ⟨u, v, hu, rfl⟩ | ⟨c, info, hc, rfl⟩
    · exact .inr (.inr ⟨i, u, v, (encode_of_decode hd).symm, hrun, hu, rfl⟩)
    · exact .inr (.inl ⟨c, info, takenFault_ne_none hc, rfl⟩)

theorem hostWriteIn_next {a : Nat} {v : U16} {s t : State} (h : hostWriteIn a v s = .next t) :
    a < inSize s.cfg ∧ t = { s with inMem := s.inMem.set a v } := by
  rcases hostWriteIn_cases a v s with ⟨ha, he⟩ | ⟨-, he⟩ <;> rw [he] at h <;> cases h
  exact ⟨ha, rfl⟩

theorem hostReadIn_next {a : Nat} {s t : State} (h : hostReadIn a s = .next t) :
    t = { s with hostReads := s.hostReads ++ [inRead s a] } := by
  rcases hostReadIn_cases a s with ⟨-, he⟩ | ⟨-, he⟩ <;> rw [he] at h <;> cases h
  rfl

theorem hostReadOut_next {a : Nat} {s t : State} (h : hostReadOut a s = .next t) :
    t = { s with hostReads := s.hostReads ++ [outRead s a] } := by
  rcases hostReadOut_cases a s with ⟨-, he⟩ | ⟨-, he⟩ <;> rw [he] at h <;> cases h
  rfl

end Sys2Proof.Machine
end

section
/-! The invariant of Safety.lean: every named update keeps it, so every action of the host keeps it (O42, O43). -/

namespace Sys2Proof.Machine

/-- The invariant says nothing of the host's queue, the two logs and the number of the next draw. -/
theorem State.Inv.of_logs {s : State} (h : s.Inv) (p : List HostEvent) (r : List Response) (c : List U16) (d : Nat) :
    State.Inv { s with pending := p, responses := r, hostReads := c, draws := d } :=
  ⟨{ h.registers with }, { h.memories with }, { h.record with }, h.mono, h.table⟩

theorem State.Inv.respond {s : State} (h : s.Inv) (v : U32) : (s.respond v).Inv := h.of_logs _ _ _ _

theorem State.Inv.refuseAfterFault {s : State} (h : s.Inv) : s.refuseAfterFault.Inv := h.of_logs _ _ _ _

/-- A recorded fault keeps FAULTED and CAUSE consistent, since its cause is not NONE (R22, R85). -/
theorem State.Inv.raiseFault {s : State} (h : s.Inv) {c : Cause} (hc : c ≠ .none) (info : U32) :
    (s.raiseFault c info).Inv :=
  ⟨{ h.registers with }, { h.memories with }, ⟨by simp [hc], by simp⟩, h.mono, h.table⟩

/-- Writing logical pixels keeps the invariant: they are inside OUT (R38). -/
theorem State.Inv.writeOut {s : State} (h : s.Inv) {ws : List (Nat × U16)} (hw : ∀ c ∈ ws, IsLogical s.cfg c.1) :
    State.Inv { s with out := s.out.writeAll ws } :=
  ⟨{ h.registers with },
    { h.memories with
      outWf := Memory.writeAll_wf h.memories.outWf ws
      outRange := Memory.writeAll_within h.memories.outRange fun c hc => isLogical_lt (hw c hc) },
    { h.record with }, h.mono, h.table⟩

theorem State.Inv.scrambleLogical {s : State} (h : s.Inv) : s.scrambleLogical.Inv := by
  refine State.Inv.of_logs (h.writeOut fun c hc => ?_) _ _ _ _
  obtain ⟨a, ha, rfl⟩ := List.mem_map.1 hc
  exact (mem_logicalAddrs _ _).1 ha

theorem State.Inv.of_faultBase {s : State} (h : s.Inv) (c : Cause) : (faultBase s c).Inv := by
  unfold faultBase
  split
  · exact h.scrambleLogical
  · exact h

/-- The power-on event leads into the invariant: the block's memories are empty, and READY and PAL_BUILT are 0. -/
theorem inv_powerOn {s : State} (hwf : s.inMem.wf) (hrange : s.inMem.within (inSize s.cfg)) : s.powerOn.Inv := by
  obtain ⟨-, -, -, -, -, -, hsrc, hdst, -⟩ := cfg_constraints s.cfg
  exact
    { registers := ⟨hsrc, hdst, by simp, Nat.zero_le _, by simp⟩
      memories := ⟨.nil, by simp, hwf, hrange, .nil, by simp⟩
      record := ⟨by simp, by simp⟩
      mono := by simp [State.QueueMono]
      table := by simp [State.TableOk] }

theorem State.Inv.build {s : State} (h : s.Inv) :
    State.Inv { s with ct := s.ct.writeAll (tableWrites s.cfg), palBuilt := true } :=
  ⟨{ h.registers with },
    { h.memories with
      ctWf := Memory.writeAll_wf h.memories.ctWf _
      ctRange := Memory.writeAll_within h.memories.ctRange (tableWrites_range s.cfg) },
    { h.record with }, h.mono, fun _ => ctRead_of_tableWrites rfl⟩

theorem State.Inv.rsReset {s : State} (h : s.Inv) :
    State.Inv { s with acc := 0#25, hist := List.replicate s.cfg.histLen 0#16, q := [], rsReady := true } :=
  ⟨{ h.registers with
      hist := List.length_replicate
      q := Nat.zero_le _
      acc := fun _ => rate_pos h.registers.src },
    { h.memories with }, { h.record with }, by simp [State.QueueMono], h.table⟩

/-- A rate command leaves RS_READY 0, so the bound on ACC asks nothing (R25, R72). -/
theorem State.Inv.setRates {s : State} (h : s.Inv) {r t : U24} (hr : r ≠ 0#24) (ht : t ≠ 0#24) :
    State.Inv { s with srcRate := r, dstRate := t, rsReady := false } :=
  ⟨{ h.registers with src := hr, dst := ht, acc := by simp },
    { h.memories with }, { h.record with }, h.mono, h.table⟩

/-- A FEED with room in Q leaves ACC reduced below SRC_RATE and pushes mono pairs alone (R25, R76). -/
theorem State.Inv.feed {s : State} (h : s.Inv) (smp : S16) (hroom : s.q.length + pairCount s ≤ s.cfg.qcap) :
    State.Inv { s with
      hist := shiftIn smp s.hist
      acc := BitVec.ofNat 25 (feedEmission smp s).1
      q := s.q ++ (feedEmission smp s).2 } := by
  refine ⟨{ h.registers with hist := ?_, q := ?_, acc := fun _ => ?_ }, { h.memories with }, { h.record with }, ?_, h.table⟩
  · exact (shiftIn_length smp s.hist).trans h.registers.hist
  · simpa using hroom
  · rw [feedEmission_acc_toNat smp h.registers.src]
    exact Nat.mod_lt _ (rate_pos h.registers.src)
  · intro p hp
    rcases List.mem_append.1 hp with hp | hp
    · exact h.mono p hp
    · rw [feedEmission_pairs] at hp
      obtain ⟨k, -, rfl⟩ := List.mem_map.1 hp
      rfl

theorem State.Inv.pop {s : State} (h : s.Inv) {p : Pair} {rest : List Pair} (hq : s.q = p :: rest) :
    State.Inv { s with q := rest } := by
  have hlen := h.registers.q
  rw [hq, List.length_cons] at hlen
  exact ⟨{ h.registers with q := Nat.le_of_succ_le hlen }, { h.memories with }, { h.record with },
    fun p' hp' => h.mono p' (hq ▸ List.mem_cons_of_mem p hp'), h.table⟩

theorem State.Inv.writeIn {s : State} (h : s.Inv) {a : Nat} (ha : a < inSize s.cfg) (v : U16) :
    State.Inv { s with inMem := s.inMem.set a v } :=
  ⟨{ h.registers with },
    { h.memories with
      inWf := Memory.set_wf h.memories.inWf a v
      inRange := Memory.set_within h.memories.inRange ha v },
    { h.record with }, h.mono, h.table⟩

theorem State.Inv.of_ownEffect {s u : State} {v : U32} {i : Instr} (h : s.Inv) (hu : OwnEffect s u v i) : u.Inv := by
  cases i with
  | build => obtain ⟨-, rfl, -⟩ := hu; exact h.build
  | convert => obtain ⟨-, -, rfl, -⟩ := hu; exact h.writeOut (pixelWrites_logical s)
  | rsReset => obtain ⟨rfl, -⟩ := hu; exact h.rsReset
  | setSrcRate _ => obtain ⟨hr, rfl, -⟩ := hu; exact h.setRates hr h.registers.dst
  | setDstRate _ => obtain ⟨hr, rfl, -⟩ := hu; exact h.setRates h.registers.src hr
  | feed smp => obtain ⟨-, -, hroom, rfl, -⟩ := hu; exact h.feed smp hroom
  | pop => obtain ⟨_, _, hq, rfl, -⟩ := hu; exact h.pop hq
  | lutRead _ => obtain ⟨-, rfl, -⟩ := hu; exact h
  | getSrcRate | getDstRate | pending | readStatus | readFaultInfo => obtain ⟨rfl, -⟩ := hu; exact h

theorem State.Inv.of_exec {i : Instr} {s t : State} (h : s.Inv) (he : exec i s = .next t) : t.Inv := by
  rcases exec_next he with ⟨u, v, hu, rfl⟩ | ⟨c, info, hc, rfl⟩
  · exact (h.of_ownEffect hu).respond v
  · exact (h.of_faultBase c).raiseFault (takenFault_ne_none hc) info

theorem State.Inv.of_runCommand {w : U32} {s t : State} (h : s.Inv) (he : runCommand w s = .next t) : t.Inv := by
  rcases runCommand_next he with ⟨-, rfl⟩ | ⟨c, info, hc, rfl⟩ | ⟨i, u, v, -, -, hu, rfl⟩
  · exact h.refuseAfterFault
  · exact (h.of_faultBase c).raiseFault hc info
  · exact (h.of_ownEffect hu).respond v

theorem State.Inv.of_serve {ev : HostEvent} {s t : State} (h : s.Inv) (he : serve ev s = .next t) : t.Inv := by
  cases ev with
  | command w => exact h.of_runCommand he
  | writeIn a v => obtain ⟨ha, rfl⟩ := hostWriteIn_next he; exact h.writeIn ha v
  | readIn a => obtain rfl := hostReadIn_next he; exact h.of_logs _ _ _ _
  | readOut a => obtain rfl := hostReadOut_next he; exact h.of_logs _ _ _ _
  | powerOn => cases he; exact inv_powerOn h.memories.inWf h.memories.inRange

/-- Settles O43: each action of the host keeps each part of the invariant. -/
theorem stepKeepsInv : Obligations.StepKeepsInv := by
  intro s t h hstep
  rcases step_cases s with ⟨-, he⟩ | ⟨ev, rest, -, he⟩
  · cases hstep.symm.trans he
    exact h
  · exact (h.of_logs rest _ _ _).of_serve (he.symm.trans hstep)

/-- State.reset is what the power-on event of draw 0 makes of a block whose IN nothing has written. -/
theorem reset_eq_powerOn : State.reset = State.powerOn { State.reset with draws := 0 } := rfl

/-- Settles O42: the power-on event leads into the invariant. -/
theorem resetMeetsInv : Obligations.ResetMeetsInv := by
  unfold Obligations.ResetMeetsInv
  rw [reset_eq_powerOn]
  exact inv_powerOn .nil (by simp [State.reset])

end Sys2Proof.Machine
end

section
/-! Noninterference (spec/10_state.md R17): two states that agree on everything specified take agreeing steps (O47). -/

namespace Sys2Proof.Machine

/-- Two outcomes of the same kind: next states that agree, or the same stop. -/
inductive ResultsAgree : Result → Result → Prop
  | next {s t : State} (h : s.Agree t) : ResultsAgree (.next s) (.next t)
  | fault (r : Fault) : ResultsAgree (.fault r) (.fault r)
  | refused (r : Refusal) : ResultsAgree (.refused r) (.refused r)

variable {s t : State}

theorem ResultsAgree.of_next {s : State} {r : Result} (h : ResultsAgree (.next s) r) :
    ∃ t, r = .next t ∧ s.Agree t := by
  cases h with
  | next hst => exact ⟨_, rfl, hst⟩

theorem ResultsAgree.of_fault {f : Fault} {r : Result} (h : ResultsAgree (.fault f) r) : r = .fault f := by
  cases h
  rfl

theorem ResultsAgree.of_refused {f : Refusal} {r : Result} (h : ResultsAgree (.refused f) r) : r = .refused f := by
  cases h
  rfl

/-- A check that holds in both states or in neither takes both to the same branch. -/
theorem ResultsAgree.ite {p q : Prop} [Decidable p] [Decidable q] (hpq : p ↔ q) {a b c d : Result}
    (hyes : ResultsAgree a c) (hno : ResultsAgree b d) : ResultsAgree (if p then a else b) (if q then c else d) := by
  by_cases hp : p
  · rwa [if_pos hp, if_pos (hpq.1 hp)]
  · rwa [if_neg hp, if_neg (mt hpq.2 hp)]

theorem State.Agree.setPending (h : s.Agree t) (rest : List HostEvent) :
    State.Agree { s with pending := rest } { t with pending := rest } :=
  { h with pending := rfl }

/-- What the host has read is no part of the agreement. -/
theorem State.Agree.setHostReads (h : s.Agree t) (c d : List U16) :
    State.Agree { s with hostReads := c } { t with hostReads := d } :=
  { h with }

theorem State.Agree.answer (h : s.Agree t) (err : Bool) (v : U32) : (s.answer err v).Agree (t.answer err v) :=
  { h with responses := congrArg (fun rs : List Response => rs ++ [⟨err, v⟩]) h.responses }

theorem State.Agree.respond (h : s.Agree t) (v : U32) : (s.respond v).Agree (t.respond v) := h.answer false v

theorem State.Agree.raiseFault (h : s.Agree t) (c : Cause) (info : U32) :
    (s.raiseFault c info).Agree (t.raiseFault c info) :=
  { h.answer true 0#32 with faulted := rfl, cause := rfl, faultInfo := rfl }

/-- OUT and the counter of draws are no part of the agreement, so writing either is free (R17, R66). -/
theorem State.Agree.writeOut (h : s.Agree t) (m n : Memory 16) (d e : Nat) :
    State.Agree { s with out := m, draws := d } { t with out := n, draws := e } :=
  { h with }

/-- BUILD gives both tables the same entries, whatever they held (R57, R59). -/
theorem State.Agree.build (h : s.Agree t) :
    State.Agree { s with ct := s.ct.writeAll (tableWrites s.cfg), palBuilt := true }
      { t with ct := t.ct.writeAll (tableWrites t.cfg), palBuilt := true } :=
  { h with
    palBuilt := rfl
    ct := fun _ i => by rw [ctRead_of_tableWrites rfl, ctRead_of_tableWrites rfl, h.cfg] }

theorem State.Agree.rsReset (h : s.Agree t) :
    State.Agree { s with acc := 0#25, hist := List.replicate s.cfg.histLen 0#16, q := [], rsReady := true }
      { t with acc := 0#25, hist := List.replicate t.cfg.histLen 0#16, q := [], rsReady := true } :=
  { h with
    q := rfl, rsReady := rfl, acc := fun _ => rfl
    hist := fun _ => congrArg (fun c : Cfg => List.replicate c.histLen 0#16) h.cfg }

/-- A rate command leaves RS_READY 0, where ACC and HIST may differ (R72, R73). -/
theorem State.Agree.setRates (h : s.Agree t) {r r' d d' : U24} (hr : r = r') (hd : d = d') :
    State.Agree { s with srcRate := r, dstRate := d, rsReady := false }
      { t with srcRate := r', dstRate := d', rsReady := false } :=
  { h with srcRate := hr, dstRate := hd, rsReady := rfl, acc := by simp, hist := by simp }

theorem State.Agree.feed (h : s.Agree t) {hist hist' : List S16} (hh : hist = hist') (acc : U25) (ps : List Pair) :
    State.Agree { s with hist := hist, acc := acc, q := s.q ++ ps } { t with hist := hist', acc := acc, q := t.q ++ ps } :=
  { h with hist := fun _ => hh, acc := fun _ => rfl, q := congrArg (· ++ ps) h.q }

theorem State.Agree.setQ (h : s.Agree t) (q : List Pair) : State.Agree { s with q := q } { t with q := q } :=
  { h with q := rfl }

theorem State.Agree.writeIn (h : s.Agree t) (a : Nat) (v : U16) :
    State.Agree { s with inMem := s.inMem.set a v } { t with inMem := t.inMem.set a v } :=
  { h with inMem := congrArg (Memory.set · a v) h.inMem }

/-- After the power-on event CT, ACC and HIST are unspecified again, whatever the two draws (R17, R96). -/
theorem State.Agree.powerOn (h : s.Agree t) : s.powerOn.Agree t.powerOn :=
  { h with
    palBuilt := rfl, rsReady := rfl, faulted := rfl, cause := rfl, faultInfo := rfl, q := rfl
    srcRate := congrArg (·.srcRate0) h.cfg
    dstRate := congrArg (·.dstRate0) h.cfg
    ct := by simp, acc := by simp, hist := by simp }

theorem State.Agree.inRead_eq (h : s.Agree t) (a : Nat) : inRead s a = inRead t a := inRead_congr h.inMem a

theorem State.Agree.firstBad_eq (h : s.Agree t) : firstBad s = firstBad t := by
  simp only [firstBad, h.cfg, h.inRead_eq]

theorem State.Agree.statusWord_eq (h : s.Agree t) : statusWord s = statusWord t := by
  simp only [statusWord, h.cause, h.faulted, h.rsReady, h.palBuilt]

theorem State.Agree.pairCount_eq (h : s.Agree t) (hr : s.rsReady = true) : pairCount s = pairCount t := by
  simp only [pairCount, h.acc hr, h.srcRate, h.dstRate]

theorem State.Agree.feedEmission_eq (h : s.Agree t) (hr : s.rsReady = true) (smp : S16) :
    feedEmission smp s = feedEmission smp t := by
  simp only [feedEmission, h.cfg, h.pairCount_eq hr, h.acc hr, h.hist hr, h.srcRate, h.dstRate]

theorem exec_build_agree (h : s.Agree t) : ResultsAgree (exec .build s) (exec .build t) := by
  cases hb : s.palBuilt
  · rw [exec_build_new hb, exec_build_new (h.palBuilt ▸ hb)]
    exact .next (h.build.respond _)
  · rw [exec_build_again hb, exec_build_again (h.palBuilt ▸ hb)]
    exact .next (h.raiseFault _ _)

/-- CONVERT meets the same first bad cell in both states, and writes nothing but OUT (R64). -/
theorem exec_convert_agree (h : s.Agree t) : ResultsAgree (exec .convert s) (exec .convert t) := by
  cases hb : s.palBuilt
  · rw [exec_convert_unbuilt hb, exec_convert_unbuilt (h.palBuilt ▸ hb)]
    exact .next (h.raiseFault _ _)
  · have hb' : t.palBuilt = true := h.palBuilt ▸ hb
    cases hf : firstBad s with
    | none =>
      rw [exec_convert_good hb hf, exec_convert_good hb' (h.firstBad_eq ▸ hf)]
      exact .next ((h.writeOut _ _ _ _).respond _)
    | some a =>
      rw [exec_convert_bad hb hf, exec_convert_bad hb' (h.firstBad_eq ▸ hf)]
      exact .next ((h.writeOut _ _ _ _).raiseFault _ _)

/-- LUT_READ reads the table in a built state alone (R60). -/
theorem exec_lutRead_agree (h : s.Agree t) (idx : U9) :
    ResultsAgree (exec (.lutRead idx) s) (exec (.lutRead idx) t) := by
  cases hb : s.palBuilt
  · rw [exec_lutRead_unbuilt idx hb, exec_lutRead_unbuilt idx (h.palBuilt ▸ hb)]
    exact .next (h.raiseFault _ _)
  · rw [exec_lutRead_built idx hb, exec_lutRead_built idx (h.palBuilt ▸ hb), h.ct hb idx]
    exact .next (h.respond _)

theorem exec_setSrcRate_agree (h : s.Agree t) (rate : U24) :
    ResultsAgree (exec (.setSrcRate rate) s) (exec (.setSrcRate rate) t) := by
  by_cases hr : rate = 0#24
  · rw [hr, exec_setSrcRate_zero, exec_setSrcRate_zero]
    exact .next (h.raiseFault _ _)
  · rw [exec_setSrcRate hr, exec_setSrcRate hr]
    exact .next ((h.setRates rfl h.dstRate).respond _)

theorem exec_setDstRate_agree (h : s.Agree t) (rate : U24) :
    ResultsAgree (exec (.setDstRate rate) s) (exec (.setDstRate rate) t) := by
  by_cases hr : rate = 0#24
  · rw [hr, exec_setDstRate_zero, exec_setDstRate_zero]
    exact .next (h.raiseFault _ _)
  · rw [exec_setDstRate hr, exec_setDstRate hr]
    exact .next ((h.setRates h.srcRate rfl).respond _)

/-- FEED reads ACC and HIST in a READY state alone (R76). -/
theorem exec_feed_agree (h : s.Agree t) (smp : S16) : ResultsAgree (exec (.feed smp) s) (exec (.feed smp) t) := by
  cases hr : s.rsReady
  · rw [exec_feed_notReady smp hr, exec_feed_notReady smp (h.rsReady ▸ hr)]
    exact .next (h.raiseFault _ _)
  · have hr' : t.rsReady = true := h.rsReady ▸ hr
    by_cases hz : s.srcRate = 0#24
    · rw [exec_feed_zeroRate smp hr hz, exec_feed_zeroRate smp hr' (h.srcRate ▸ hz)]
      exact .fault _
    · have hz' : t.srcRate ≠ 0#24 := h.srcRate ▸ hz
      have hlen : t.q.length + pairCount t = s.q.length + pairCount s := by rw [h.q, h.pairCount_eq hr]
      rcases Nat.lt_or_ge s.cfg.qcap (s.q.length + pairCount s) with hq | hq
      · rw [exec_feed_overflow smp hr hz hq, exec_feed_overflow smp hr' hz' (by rwa [hlen, ← h.cfg]), h.q]
        exact .next (h.raiseFault _ _)
      · rw [exec_feed_room smp hr hz hq, exec_feed_room smp hr' hz' (by rwa [hlen, ← h.cfg]), h.feedEmission_eq hr]
        exact .next ((h.feed (congrArg (shiftIn smp) (h.hist hr)) _ _).respond _)

theorem exec_pop_agree (h : s.Agree t) : ResultsAgree (exec .pop s) (exec .pop t) := by
  cases hq : s.q with
  | nil =>
    rw [exec_pop_empty hq, exec_pop_empty (h.q ▸ hq)]
    exact .next (h.raiseFault _ _)
  | cons p rest =>
    rw [exec_pop_pair hq, exec_pop_pair (h.q ▸ hq)]
    exact .next ((h.setQ rest).respond _)

/-- R17 for each command: none reads an unspecified element. -/
theorem exec_agree (h : s.Agree t) (i : Instr) : ResultsAgree (exec i s) (exec i t) := by
  cases i with
  | build => exact exec_build_agree h
  | convert => exact exec_convert_agree h
  | lutRead idx => exact exec_lutRead_agree h idx
  | rsReset => exact .next (h.rsReset.respond _)
  | setSrcRate rate => exact exec_setSrcRate_agree h rate
  | setDstRate rate => exact exec_setDstRate_agree h rate
  | getSrcRate => rw [exec_getSrcRate, exec_getSrcRate, h.srcRate]; exact .next (h.respond _)
  | getDstRate => rw [exec_getDstRate, exec_getDstRate, h.dstRate]; exact .next (h.respond _)
  | feed smp => exact exec_feed_agree h smp
  | pending => rw [exec_pending, exec_pending, h.q]; exact .next (h.respond _)
  | pop => exact exec_pop_agree h
  | readStatus => rw [exec_readStatus, exec_readStatus, h.statusWord_eq]; exact .next (h.respond _)
  | readFaultInfo => rw [exec_readFaultInfo, exec_readFaultInfo, h.faultInfo]; exact .next (h.respond _)

theorem runCommand_agree (h : s.Agree t) (w : U32) : ResultsAgree (runCommand w s) (runCommand w t) := by
  rw [runCommand, runCommand, h.faulted]
  split
  · exact .next (h.answer _ _)
  · cases decode w with
    | ok i => exact exec_agree h i
    | error e => cases e <;> exact .next (h.raiseFault _ _)

theorem hostWriteIn_agree (h : s.Agree t) (a : Nat) (v : U16) :
    ResultsAgree (hostWriteIn a v s) (hostWriteIn a v t) :=
  .ite (by rw [h.cfg]) (.next (h.writeIn a v)) (.refused _)

theorem hostReadIn_agree (h : s.Agree t) (a : Nat) : ResultsAgree (hostReadIn a s) (hostReadIn a t) :=
  .ite (by rw [h.cfg]) (.next (h.setHostReads _ _)) (.refused _)

theorem hostReadOut_agree (h : s.Agree t) (a : Nat) : ResultsAgree (hostReadOut a s) (hostReadOut a t) :=
  .ite (by rw [h.cfg]) (.next (h.setHostReads _ _)) (.refused _)

theorem serve_agree (h : s.Agree t) (ev : HostEvent) : ResultsAgree (serve ev s) (serve ev t) := by
  cases ev with
  | command w => exact runCommand_agree h w
  | writeIn a v => exact hostWriteIn_agree h a v
  | readIn a => exact hostReadIn_agree h a
  | readOut a => exact hostReadOut_agree h a
  | powerOn => exact .next h.powerOn

theorem step_agree (h : s.Agree t) : ResultsAgree (step s) (step t) := by
  rw [step, step, takeEvent, takeEvent, h.pending]
  cases t.pending with
  | nil => exact .next h
  | cons ev rest => exact serve_agree (h.setPending rest) ev

/-- Settles O47: agreeing states take agreeing steps, command by command and action by action. -/
theorem unspecifiedStateIsNeverRead : Obligations.UnspecifiedStateIsNeverRead := by
  intro s t h
  exact ⟨fun _ hs => (hs ▸ step_agree h).of_next, fun _ hs => (hs ▸ step_agree h).of_fault,
    fun _ hs => (hs ▸ step_agree h).of_refused⟩

end Sys2Proof.Machine
end

section
/-! What the actions of the host change in the configuration, the memories, the table, RS_READY and ACC, and the power-on event
(O18, O30, O36, O37, O45, O46, O48, O49). -/

namespace Sys2Proof.Machine

/-- A command leaves the configuration and IN as they are (R32, R45). -/
theorem runCommand_frame {w : U32} {s t : State} (h : runCommand w s = .next t) : t.cfg = s.cfg ∧ t.inMem = s.inMem := by
  rcases runCommand_next h with ⟨-, rfl⟩ | ⟨c, info, -, rfl⟩ | ⟨i, u, v, -, -, hu, rfl⟩
  · exact ⟨rfl, rfl⟩
  · obtain ⟨hcfg, hin, -⟩ := faultBase_fields s c
    exact ⟨hcfg, hin⟩
  · obtain ⟨hcfg, hin, -⟩ := ownEffect_frame hu
    exact ⟨hcfg, hin⟩

theorem serve_cfg {ev : HostEvent} {s t : State} (h : serve ev s = .next t) : t.cfg = s.cfg := by
  cases ev with
  | command w => exact (runCommand_frame h).1
  | writeIn a v => obtain ⟨-, rfl⟩ := hostWriteIn_next h; rfl
  | readIn a => obtain rfl := hostReadIn_next h; rfl
  | readOut a => obtain rfl := hostReadOut_next h; rfl
  | powerOn => cases h; rfl

/-- Settles O48: no action of the host changes the configuration. -/
theorem configurationIsFixed : Obligations.ConfigurationIsFixed := by
  intro s t hstep
  rcases step_cases s with ⟨-, he⟩ | ⟨ev, rest, -, he⟩
  · cases hstep.symm.trans he
    rfl
  · have hcfg := serve_cfg (he.symm.trans hstep)
    exact hcfg

/-- Settles O49: commands write no IN cell, and the host's accesses write no OUT cell. -/
theorem eachMemoryHasOneWriter : Obligations.EachMemoryHasOneWriter := by
  intro s t ev rest hp hstep
  have h := step_serve hp hstep
  refine ⟨?_, ?_, fun hcommand hpower => ?_⟩
  · rintro w rfl
    exact inRead_congr (runCommand_frame h).2
  · rintro rfl
    cases h
    exact fun _ => rfl
  · cases ev with
    | command w => exact absurd rfl (hcommand w)
    | powerOn => exact absurd rfl hpower
    | writeIn a v => obtain ⟨-, rfl⟩ := hostWriteIn_next h; exact fun _ => rfl
    | readIn a => obtain rfl := hostReadIn_next h; exact fun _ => rfl
    | readOut a => obtain rfl := hostReadOut_next h; exact fun _ => rfl

/-! ### PAL_BUILT and the Color Table -/

/-- A command other than a BUILD that completes leaves the Color Table and PAL_BUILT as they are (R20, R59). -/
theorem runCommand_table {w : U32} {s t : State} (h : runCommand w s = .next t) :
    SameTable s t ∨ (w = encode .build ∧ s.palBuilt = false ∧ s.faulted = false) := by
  rcases runCommand_next h with ⟨-, rfl⟩ | ⟨c, info, -, rfl⟩ | ⟨i, u, v, rfl, hrun, hu, rfl⟩
  · exact .inl ⟨rfl, fun _ => rfl⟩
  · obtain ⟨-, -, -, hbuilt, hct⟩ := faultBase_fields s c
    exact .inl ⟨hbuilt, hct⟩
  · by_cases hi : i = .build
    · subst hi
      exact .inr ⟨rfl, hu.1, hrun.resolve_right (by decide)⟩
    · obtain ⟨hbuilt, hct⟩ := ownEffect_table hu hi
      obtain ⟨-, -, hepoch, -⟩ := ownEffect_frame hu
      exact .inl ⟨hbuilt, ctRead_congr (s := s) (t := u) hct hepoch⟩

/-- R18, R20: an action of the host leaves the table as it is, completes a BUILD, or is the power-on event. -/
theorem serve_table {ev : HostEvent} {s t : State} (h : serve ev s = .next t) :
    SameTable s t ∨ (ev = .command (encode .build) ∧ s.palBuilt = false ∧ s.faulted = false)
      ∨ (ev = .powerOn ∧ t.palBuilt = false) := by
  cases ev with
  | command w =>
    rcases runCommand_table h with hsame | ⟨rfl, hnew, hf⟩
    · exact .inl hsame
    · exact .inr (.inl ⟨rfl, hnew, hf⟩)
  | writeIn a v => obtain ⟨-, rfl⟩ := hostWriteIn_next h; exact .inl ⟨rfl, fun _ => rfl⟩
  | readIn a => obtain rfl := hostReadIn_next h; exact .inl ⟨rfl, fun _ => rfl⟩
  | readOut a => obtain rfl := hostReadOut_next h; exact .inl ⟨rfl, fun _ => rfl⟩
  | powerOn => cases h; exact .inr (.inr ⟨rfl, rfl⟩)

/-- Settles O18: by the three things an action can do to the table. -/
theorem tableIsBuiltOnceAndKept : Obligations.TableIsBuiltOnceAndKept := by
  intro s t ev rest hp hstep
  have h := step_serve hp hstep
  refine ⟨fun hnew hbuilt => ?_, fun hbuilt hpower => ?_, ?_⟩
  · rcases serve_table h with ⟨hsame, -⟩ | ⟨hev, -, hf⟩ | ⟨-, hoff⟩
    · exact absurd (hsame.symm.trans hbuilt) (by simp [hnew])
    · exact ⟨hev, hf⟩
    · exact absurd (hoff.symm.trans hbuilt) (by decide)
  · rcases serve_table h with hsame | ⟨-, hnew, -⟩ | ⟨hev, -⟩
    · exact hsame
    · exact absurd (hnew.symm.trans hbuilt) (by decide)
    · exact absurd hev hpower
  · rintro rfl
    cases h
    rfl

/-! ### RS_READY -/

/-- R68: RS_READY changes only by RS_RESET and by a rate command with a legal rate. -/
theorem runCommand_rsReady {w : U32} {s t : State} (h : runCommand w s = .next t) (hreset : w ≠ encode .rsReset)
    (hrate : ∀ rate : U24, rate ≠ 0#24 → w ≠ encode (.setSrcRate rate) ∧ w ≠ encode (.setDstRate rate)) :
    t.rsReady = s.rsReady := by
  rcases runCommand_next h with ⟨-, rfl⟩ | ⟨c, info, -, rfl⟩ | ⟨i, u, v, rfl, -, hu, rfl⟩
  · rfl
  · obtain ⟨-, -, hready, -⟩ := faultBase_fields s c
    exact hready
  · refine (ownEffect_rsReady hu ?_ : u.rsReady = s.rsReady)
    cases i with
    | rsReset => exact absurd rfl hreset
    | setSrcRate rate => exact absurd rfl (hrate rate hu.1).1
    | setDstRate rate => exact absurd rfl (hrate rate hu.1).2
    | build | convert | lutRead _ | getSrcRate | getDstRate | feed _ | pending | pop | readStatus | readFaultInfo => rfl

/-- Settles O36: each action of R68 sets RS_READY as stated, and no other one changes it. -/
theorem resamplerControlStates : Obligations.ResamplerControlStates := by
  intro s t ev rest hf hp hstep
  refine ⟨?_, ?_, ?_, fun hpower hreset hrate => ?_⟩
  · rintro rfl
    cases step_serve hp hstep
    rfl
  · rintro rfl
    rw [step_encode hf hp, exec_rsReset] at hstep
    cases hstep
    rfl
  · rintro rate hr (rfl | rfl)
    · rw [step_encode hf hp, exec_setSrcRate hr] at hstep
      cases hstep
      rfl
    · rw [step_encode hf hp, exec_setDstRate hr] at hstep
      cases hstep
      rfl
  · have h := step_serve hp hstep
    cases ev with
    | command w =>
      have hready := runCommand_rsReady h (fun hw => hreset (hw ▸ rfl))
        fun rate hr => ⟨fun hw => (hrate rate hr).1 (hw ▸ rfl), fun hw => (hrate rate hr).2 (hw ▸ rfl)⟩
      exact hready
    | powerOn => exact absurd rfl hpower
    | writeIn a v => obtain ⟨-, rfl⟩ := hostWriteIn_next h; rfl
    | readIn a => obtain rfl := hostReadIn_next h; rfl
    | readOut a => obtain rfl := hostReadOut_next h; rfl

/-! ### ACC -/

/-- The emission loop only subtracts, however many rounds it is given (R76). -/
theorem emit_acc_le (value : Nat → S16) (r : Nat) : ∀ n acc, (emit value r n acc).1 ≤ acc
  | 0, _ => le_rfl
  | n + 1, acc => by
    rw [emit]
    split
    · exact (emit_acc_le value r n (acc - r)).trans (Nat.sub_le acc r)
    · exact le_rfl

/-- Two rates together are below 2^25 - 1 (R25). -/
theorem rates_sum_le (r t : U24) : r.toNat + t.toNat ≤ 2 ^ 25 - 2 := by
  have hr := r.isLt
  have ht := t.isLt
  omega

/-- A FEED that completes stores the emission loop's last value whole (R25, R76). -/
theorem exec_feed_acc {s t : State} {smp : S16} (h : exec (.feed smp) s = .next t) (hf : t.faulted = false) :
    t.acc.toNat = (feedEmission smp s).1 := by
  rcases exec_next h with ⟨u, v, ⟨-, hr, -, rfl, -⟩, rfl⟩ | ⟨c, info, -, rfl⟩
  · exact (feedEmission_acc_toNat smp hr).trans (feedEmission_acc smp s).symm
  · cases hf

/-- A FEED leaves RS_READY as it is, whether it completes or faults (R68). -/
theorem exec_feed_rsReady {s t : State} {smp : S16} (h : exec (.feed smp) s = .next t) : t.rsReady = s.rsReady := by
  rcases exec_next h with ⟨u, v, hu, rfl⟩ | ⟨c, info, -, rfl⟩
  · exact (ownEffect_rsReady hu rfl : u.rsReady = s.rsReady)
  · obtain ⟨-, -, hready, -⟩ := faultBase_fields s c
    exact hready

/-- Settles O37: by the invariant, and because the emission loop starts below R + T and only subtracts. -/
theorem accumulatorNeverOverflows : Obligations.AccumulatorNeverOverflows := by
  refine ⟨fun s t h hstep => (stepKeepsInv s t h hstep).registers.acc, fun s t smp h hready hfeed => ⟨?_, ?_, ?_, ?_⟩⟩
  · intro value rounds
    have hacc := h.registers.acc hready
    exact (emit_acc_le value _ rounds _).trans_lt (Nat.add_lt_add_right hacc _)
  · exact rates_sum_le s.srcRate s.dstRate
  · exact exec_feed_acc hfeed
  · exact (h.of_exec hfeed).registers.acc ((exec_feed_rsReady hfeed).trans hready)

/-! ### Reset -/

/-- Settles O30: FEED's stop comes before its pair count. -/
theorem feedStopsOnZeroSourceRate : Obligations.FeedStopsOnZeroSourceRate :=
  fun _ smp hready hzero => exec_feed_zeroRate smp hready hzero

/-- STATUS is 0 after the power-on event (R19, R96). -/
theorem statusWord_powerOn (s : State) : statusWord s.powerOn = 0#32 := by
  simp only [statusWord, State.powerOn_cause, State.powerOn_faulted, State.powerOn_rsReady, State.powerOn_palBuilt]
  decide

/-- Settles O45: State.reset is the state after a power-on event, and has its values. -/
theorem resetValues : Obligations.ResetValues := by
  refine ⟨rfl, rfl, rfl, rfl, rfl, rfl, rfl, rfl, ?_⟩
  rw [reset_eq_powerOn]
  exact statusWord_powerOn _

/-- Settles O46: the step is the event itself, whose every field is stated in its update. -/
theorem powerOnEvent : Obligations.PowerOnEvent := by
  intro s rest hp
  have hstep : step s = .next (State.powerOn { s with pending := rest }) := by rw [step, takeEvent, hp]; rfl
  refine ⟨_, hstep, statusWord_powerOn _, rfl, rfl, rfl, rfl, rfl, rfl, rfl, rfl, fun _ => rfl, rfl, ?_, ?_,
    fun _ => rfl, rfl, fun _ => rfl, rfl, rfl, rfl, rfl⟩
  · simp
  · intro k hk
    simp [hk]

end Sys2Proof.Machine
end

section
/-! The host's accesses to IN and OUT, the reading commands and the byte view of POP's word (spec/20_memory.md R33, R37 to
R39), and where a step from the invariant stops (O44, O50, O52, O54). -/

namespace Sys2Proof.Machine

/-! ### Where a step stops -/

/-- With a legal source rate every command ends in a next state: FEED's stop is the only other outcome (R24). -/
theorem exec_completes {s : State} (h : s.srcRate ≠ 0#24) (i : Instr) : ∃ t, exec i s = .next t := by
  rcases exec_total i s with ⟨u, v, -, he⟩ | ⟨c, info, -, he⟩ | ⟨hzero, -, -⟩
  · exact ⟨_, he⟩
  · exact ⟨_, he⟩
  · exact absurd hzero h

/-- With a legal source rate the dispatch of every word ends in a next state (R51). -/
theorem runCommand_completes {s : State} (h : s.srcRate ≠ 0#24) (w : U32) : ∃ t, runCommand w s = .next t := by
  rcases runCommand_cases w s with ⟨-, -, he⟩ | ⟨-, ⟨-, he⟩ | ⟨-, he⟩ | ⟨i, -, he⟩⟩
  · exact ⟨_, he⟩
  · exact ⟨_, he⟩
  · exact ⟨_, he⟩
  · rw [he]
    exact exec_completes h i

/-- Settles O44: a command completes because the invariant keeps SRC_RATE legal; a host access stops only outside its space. -/
theorem stepsStopOnlyOnHostAddresses : Obligations.StepsStopOnlyOnHostAddresses := by
  intro s hinv
  rcases step_cases s with ⟨-, he⟩ | ⟨ev, rest, hp, he⟩
  · exact .inl ⟨s, he⟩
  rw [he]
  cases ev with
  | command w => exact .inl (runCommand_completes (s := { s with pending := rest }) hinv.registers.src w)
  | powerOn => exact .inl ⟨_, rfl⟩
  | writeIn a v =>
    rcases hostWriteIn_cases a v { s with pending := rest } with ⟨-, hw⟩ | ⟨ha, hw⟩
    · exact .inl ⟨_, hw⟩
    · exact .inr (.inl ⟨a, v, rest, hp, ha, hw⟩)
  | readIn a =>
    rcases hostReadIn_cases a { s with pending := rest } with ⟨-, hr⟩ | ⟨ha, hr⟩
    · exact .inl ⟨_, hr⟩
    · exact .inr (.inr (.inl ⟨a, rest, hp, ha, hr⟩))
  | readOut a =>
    rcases hostReadOut_cases a { s with pending := rest } with ⟨-, hr⟩ | ⟨ha, hr⟩
    · exact .inl ⟨_, hr⟩
    · exact .inr (.inr (.inr ⟨a, rest, hp, ha, hr⟩))

/-! ### The host's accesses -/

/-- An action the host puts next is served on the state it was put before (R40). -/
theorem hostDo_eq_serve (ev : HostEvent) (s : State) : hostDo ev s = serve ev s := rfl

theorem inRead_writeIn_same (s : State) (a : Nat) (v : U16) : inRead { s with inMem := s.inMem.set a v } a = v := by
  simp [inRead]

theorem inRead_writeIn_other (s : State) {a b : Nat} (v : U16) (h : b ≠ a) :
    inRead { s with inMem := s.inMem.set a v } b = inRead s b := by
  simp [inRead, Memory.get?_set_other _ _ h]

/-- Settles O50: each access is one test of the address, and a write is read back by the laws of a storage space. -/
theorem hostAccesses : Obligations.HostAccesses := by
  intro s a v
  simp only [hostDo_eq_serve]
  refine ⟨fun ha => ?_, fun ha => if_pos ha, fun ha => if_pos ha, fun ha => ?_, fun ha => if_neg (Nat.not_lt.2 ha)⟩
  · refine ⟨{ s with inMem := s.inMem.set a v }, if_pos ha, inRead_writeIn_same s a v,
      fun b hb => inRead_writeIn_other s v hb, ?table, ?resampler, ?record, fun _ => rfl, ?host, rfl⟩
    case table => exact ⟨rfl, fun _ => rfl⟩
    case resampler => exact ⟨rfl, rfl, rfl, rfl, rfl, rfl⟩
    case record => exact ⟨rfl, rfl, rfl⟩
    case host => exact ⟨rfl, rfl, rfl⟩
  · have hout : ¬ a < inSize s.cfg := Nat.not_lt.2 ha
    exact ⟨if_neg hout, if_neg hout⟩

/-! ### The reading commands -/

/-- Settles O52: each of these commands answers from the state it runs in. -/
theorem readsHaveNoSideEffect : Obligations.ReadsHaveNoSideEffect := by
  intro s t i hi h
  have hread : ∃ v, exec i s = .next (s.respond v) := by
    rcases hi with rfl | rfl | rfl | ⟨hbuilt, idx, rfl⟩ | rfl | rfl
    · exact ⟨_, exec_pending⟩
    · exact ⟨_, exec_getSrcRate⟩
    · exact ⟨_, exec_getDstRate⟩
    · exact ⟨_, exec_lutRead_built idx hbuilt⟩
    · exact ⟨_, exec_readStatus⟩
    · exact ⟨_, exec_readFaultInfo⟩
  obtain ⟨v, he⟩ := hread
  exact ⟨v, Host.Outcome.next.inj (h.symm.trans he)⟩

/-- Bytes 0 and 1 of POP's word are the left channel's, bytes 2 and 3 the right channel's (R37, R78). -/
theorem wordByte_pop_word (l r : S16) :
    wordByte (r ++ l) 0 = cellByte l 0 ∧ wordByte (r ++ l) 1 = cellByte l 1
      ∧ wordByte (r ++ l) 2 = cellByte r 0 ∧ wordByte (r ++ l) 3 = cellByte r 1 :=
  ⟨extract_of_low (a := 0) (l := 8) rfl r l (by decide), extract_of_low (a := 8) (l := 8) rfl r l (by decide),
    extract_of_high (a := 16) (l := 8) rfl r l (by decide), extract_of_high (a := 24) (l := 8) rfl r l (by decide)⟩

/-- Settles O54: by the bytes of POP's word. -/
theorem popWordInterleavesChannels : Obligations.PopWordInterleavesChannels := by
  intro s p rest hq
  exact ⟨_, ⟨false, p.right ++ p.left⟩, exec_pop_pair hq, rfl, rfl, wordByte_pop_word p.left p.right⟩

end Sys2Proof.Machine
end

section
/-! The encoding and dispatch of spec/30_encoding.md R47 to R55: the round trip, the opcode map, the two decode faults, and the
one response of every word (O1 to O7, O12, O55). -/

namespace Sys2Proof.Machine

/-! ### Encoding -/

/-- Settles O1: by the row of each command. -/
theorem decodeOfEncode : Obligations.DecodeOfEncode := decode_encode

/-- Settles O2: a word is its row's match and its operand, because the mask covers the bits between. -/
theorem encodeOfDecode : Obligations.EncodeOfDecode := fun _ _ h => encode_of_decode h

/-- Settles O3: the table's thirteen words, computed. -/
theorem opcodeMapMatchAndMask : Obligations.OpcodeMapMatchAndMask := by
  unfold Obligations.OpcodeMapMatchAndMask
  decide

/-- Settles O4: each word's decoding, computed. -/
theorem specWordsDecode : Obligations.SpecWordsDecode := by
  unfold Obligations.SpecWordsDecode
  decide

/-- Settles O55: each line's assembly, computed. -/
theorem assemblerExamples : Obligations.AssemblerExamples := by
  unfold Obligations.AssemblerExamples
  decide +kernel

/-! ### The two decode faults -/

/-- The opcodes of R50 are all different, so a word's OP selects the one row that has it. -/
theorem rowOf_eq_some {w : U32} {r : Row} (hr : r ∈ rows) (hop : r.op = opField w) : rowOf w = some r := by
  have hinj := List.inj_on_of_nodup_map (f := Row.op) (l := rows) (by decide)
  cases hfind : rowOf w with
  | none => exact absurd (by simpa using hop) (List.find?_eq_none.1 hfind r hr)
  | some r' =>
    have hop' : r'.op = opField w := by simpa using List.find?_some hfind
    rw [hinj (List.mem_of_find?_eq_some hfind) hr (hop'.trans hop.symm)]

/-- R51: a word of a row with a must-be-0 bit set is no command. -/
theorem decode_reservedBits {w : U32} {r : Row} (hr : r ∈ rows) (hop : r.op = opField w)
    (hm : w &&& reservedBits r.form ≠ 0#32) : decode w = .error .reservedBits := by
  simp [decode, rowOf_eq_some hr hop, hm]

/-- R51: a word has an illegal opcode exactly when no row has its OP. -/
theorem decode_illegalOpcode_iff (w : U32) : decode w = .error .illegalOpcode ↔ ∀ r ∈ rows, r.op ≠ opField w := by
  constructor
  · intro h r hr hop
    by_cases hm : w &&& reservedBits r.form = 0#32
    · rw [decode_of_row (rowOf_eq_some hr hop) hm] at h
      cases h
    · rw [decode_reservedBits hr hop hm] at h
      cases h
  · intro h
    have hnone : rowOf w = none := List.find?_eq_none.2 (by simpa using h)
    simp [decode, hnone]

/-- R52's ranges are the opcodes that no row of R50 has. -/
theorem unassigned_iff (op : U8) : Unassigned op.toNat ↔ ∀ r ∈ rows, r.op ≠ op := by
  have hlt := op.isLt
  simp only [rows, List.forall_mem_cons, List.not_mem_nil, false_implies, implies_true, and_true, ne_eq, Unassigned,
    ← BitVec.toNat_inj, BitVec.toNat_ofNat]
  omega

/-- The fault procedure changes the fault record and the log of responses alone (R85). -/
theorem trapped_raiseFault (s : State) (c : Cause) (info : U32) :
    Trapped s (s.raiseFault c info) c info ∧ SameOut s (s.raiseFault c info) :=
  ⟨⟨rfl, rfl, rfl, rfl, ⟨rfl, fun _ => rfl⟩, ⟨rfl, rfl, rfl, rfl, rfl, rfl⟩, fun _ => rfl, rfl, rfl, rfl⟩, fun _ => rfl⟩

theorem runCommand_illegalOpcode {s : State} {w : U32} (hf : s.faulted = false) (hd : decode w = .error .illegalOpcode) :
    runCommand w s = .next (s.raiseFault .illegalOpcode w) := by
  simp [runCommand, hf, hd]

theorem runCommand_reservedBits {s : State} {w : U32} (hf : s.faulted = false) (hd : decode w = .error .reservedBits) :
    runCommand w s = .next (s.raiseFault .reservedBits w) := by
  simp [runCommand, hf, hd]

/-- Settles O5: the unassigned opcodes are those no row has, and the fault is the fault procedure. -/
theorem unassignedOpcodesAreIllegal : Obligations.UnassignedOpcodesAreIllegal := by
  have hdec : ∀ w : U32, decode w = .error .illegalOpcode ↔ Unassigned (opField w).toNat := fun w =>
    (decode_illegalOpcode_iff w).trans (unassigned_iff (opField w)).symm
  refine ⟨fun s w rest hf hp hop => ?_, hdec, ?_, ?_⟩
  · exact ⟨_, (step_command hp).trans (runCommand_illegalOpcode hf ((hdec w).2 hop)), trapped_raiseFault _ _ _⟩
  · exact .inl rfl
  · exact .inr (.inr (.inr (by decide)))

/-- Settles O6: the word selects its row, whose mask finds the bit; the fault is the fault procedure. -/
theorem reservedBitsFault : Obligations.ReservedBitsFault := by
  intro s w rest r hf hp hr hop hm
  exact ⟨_, (step_command hp).trans (runCommand_reservedBits hf (decode_reservedBits hr hop hm)), trapped_raiseFault _ _ _⟩

/-! ### Dispatch -/

theorem readsStatus_iff (w : U32) : readsStatus w = true ↔ w = 0x30000000#32 ∨ w = 0x31000000#32 := by
  simp [readsStatus]

/-- R51: a word that decodes runs its command, unless the block is faulted and the word is no status read. -/
theorem runCommand_of_decode {s : State} {w : U32} {i : Instr} (hd : decode w = .ok i)
    (hrun : s.faulted = false ∨ readsStatus w = true) : runCommand w s = exec i s := by
  have hgo : (s.faulted && !readsStatus w) = false := by rcases hrun with h | h <;> simp [h]
  simp [runCommand, hgo, hd]

/-- Settles O7: the dispatch of a word that decodes is its command. -/
theorem stepRunsTheDecodedCommand : Obligations.StepRunsTheDecodedCommand := by
  intro s w rest i hp hd hrun
  rw [step_command hp]
  exact runCommand_of_decode hd (hrun.imp_right (readsStatus_iff w).2)

/-- The two status reads answer in every state, faulted or not (R81, R82, R86). -/
theorem runCommand_readsStatus {w : U32} (hw : readsStatus w = true) (s : State) :
    ∃ v, runCommand w s = .next (s.respond v) := by
  rcases (readsStatus_iff w).1 hw with rfl | rfl
  · exact ⟨_, (runCommand_of_decode (i := .readStatus) rfl (.inr rfl)).trans exec_readStatus⟩
  · exact ⟨_, (runCommand_of_decode (i := .readFaultInfo) rfl (.inr rfl)).trans exec_readFaultInfo⟩

/-- No command's own effect adds a response before its own (R47). -/
theorem ownEffect_responses {s u : State} {v : U32} {i : Instr} (h : OwnEffect s u v i) : u.responses = s.responses := by
  cases i with
  | convert => obtain ⟨-, -, rfl, -⟩ := h; rfl
  | feed _ => obtain ⟨-, -, -, rfl, -⟩ := h; rfl
  | pop => obtain ⟨_, _, -, rfl, -⟩ := h; rfl
  | build | lutRead _ | setSrcRate _ | setDstRate _ => obtain ⟨-, rfl, -⟩ := h; rfl
  | rsReset | getSrcRate | getDstRate | pending | readStatus | readFaultInfo => obtain ⟨rfl, -⟩ := h; rfl

/-- A word that is no status read answers once: (1, 0) when the block is faulted afterwards, else with ERR 0 (R47, R85, R86). -/
theorem runCommand_answers {w : U32} {s t : State} (hw : readsStatus w = false) (h : runCommand w s = .next t) :
    (t.faulted = true ∧ t.responses = s.responses ++ [⟨true, 0#32⟩])
    ∨ (t.faulted = false ∧ ∃ v, t.responses = s.responses ++ [⟨false, v⟩]) := by
  rcases runCommand_next h with ⟨hf, rfl⟩ | ⟨c, info, -, rfl⟩ | ⟨i, u, v, -, hrun, hu, rfl⟩
  · exact .inl ⟨hf, rfl⟩
  · rw [faultBase_frame]
    exact .inl ⟨rfl, rfl⟩
  · have hf : s.faulted = false := hrun.resolve_right (by simp [hw])
    obtain ⟨-, -, -, hrec, -⟩ := ownEffect_frame hu
    exact .inr ⟨hrec.trans hf, v, by rw [State.respond_responses, ownEffect_responses hu]⟩

/-- Settles O12: a status read answers with ERR 0; any other word's ERR says whether the block is faulted afterwards. -/
theorem everyCommandAnswersOnce : Obligations.EveryCommandAnswersOnce := by
  intro s w rest hrate hp
  rw [step_command hp]
  cases hw : readsStatus w with
  | true =>
    obtain ⟨v, he⟩ := runCommand_readsStatus hw { s with pending := rest }
    refine ⟨_, ⟨false, v⟩, he, rfl, nofun, iff_of_true rfl ?_⟩
    rcases Bool.eq_false_or_eq_true s.faulted with hf | hf
    · exact .inr ⟨hf, rfl⟩
    · exact .inl hf
  | false =>
    obtain ⟨t, he⟩ := runCommand_completes (s := { s with pending := rest }) hrate w
    rcases runCommand_answers hw he with ⟨hf, hr⟩ | ⟨hf, v, hr⟩
    · exact ⟨t, _, he, hr, fun _ => rfl, by simp [hf]⟩
    · exact ⟨t, _, he, hr, nofun, by simp [hf]⟩

end Sys2Proof.Machine
end

section
/-! The host's programs of spec/30_encoding.md R55 and spec/70_reset_and_hazards.md R100 as functions of the state: presenting
commands, DRAIN, and the audio tick, one and many (O38, O56). -/

namespace Sys2Proof.Machine

/-! ### Presenting commands -/

/-- A command presented to an unfaulted block runs (R51, R101). -/
theorem present_eq_exec {s : State} (hf : s.faulted = false) (i : Instr) : present i s = exec i s := by
  rw [present, hostDo_eq_serve, serve]
  exact runCommand_of_decode (decode_encode i) (.inl hf)

theorem presentAll_cons {i : Instr} {s t : State} (is : List Instr) (h : present i s = .next t) :
    presentAll (i :: is) s = presentAll is t := by
  rw [present] at h
  rw [presentAll, List.map_cons, hostDoAll, h]
  rfl

/-! ### DRAIN -/

/-- POP's response to a pair (R78). -/
def popResponse (p : Pair) : Response := ⟨false, p.right ++ p.left⟩

/-- Q emptied, with the responses `rs` given meanwhile. -/
def State.drained (s : State) (rs : List Response) : State := { s with q := [], responses := s.responses ++ rs }

theorem State.drained_nil {s : State} (hq : s.q = []) : s.drained [] = s := by
  rw [State.drained, List.append_nil, ← hq]

theorem State.drained_drained (s : State) (rs rs' : List Response) :
    (s.drained rs).drained rs' = s.drained (rs ++ rs') := by
  simp [State.drained]

/-- On an empty Q a response is all that DRAIN adds. -/
theorem State.drained_singleton {s : State} (hq : s.q = []) (v : U32) : s.drained [⟨false, v⟩] = s.respond v := by
  rw [State.drained, ← hq]
  rfl

/-- As many POPs as Q has pairs answer them all, the oldest first (R78). -/
theorem presentAll_pops {ps : List Pair} {s : State} (hf : s.faulted = false) (hq : s.q = ps) :
    presentAll (List.replicate ps.length .pop) s = .next (s.drained (ps.map popResponse)) := by
  induction ps generalizing s with
  | nil => exact congrArg Host.Outcome.next (State.drained_nil hq).symm
  | cons p ps ih =>
    have hpop := (present_eq_exec hf .pop).trans (exec_pop_pair hq)
    have hrest := ih (s := State.respond { s with q := ps } (p.right ++ p.left)) hf rfl
    rw [List.length_cons, List.replicate_succ, presentAll_cons _ hpop, hrest]
    simp [State.drained, popResponse]

/-- The responses of DRAIN (R55): PENDING's count, a pair a POP, and, if there was a pair, PENDING's 0. -/
def drainResponses (ps : List Pair) : List Response :=
  ⟨false, BitVec.ofNat 32 ps.length⟩ :: ps.map popResponse ++ (if ps = [] then [] else [⟨false, 0#32⟩])

theorem present_pending {s : State} (hf : s.faulted = false) (hlen : s.q.length < 2 ^ 32) :
    present .pending s = .next (s.respond (BitVec.ofNat 32 s.q.length)) := by
  rw [present_eq_exec hf, exec_pending, zextNat_eq hlen]

@[simp] theorem lastData_respond (s : State) (v : U32) : lastData (s.respond v) = v := by
  simp [lastData]

/-- A round of DRAIN on an empty Q: PENDING answers 0, and the loop ends (R55). -/
theorem drainLoop_empty {s : State} (k : Nat) (hf : s.faulted = false) (hq : s.q = []) :
    drainLoop (k + 1) s = .next (s.respond 0#32) := by
  have hpending := present_pending hf (by simp [hq])
  rw [drainLoop, hpending]
  simp [hq]

/-- A round of DRAIN on a Q with pairs: PENDING answers their count, and POPs answer them all (R55). -/
theorem drainLoop_pairs {s : State} (k : Nat) (hf : s.faulted = false) (hq : s.q ≠ []) (hlen : s.q.length < 2 ^ 32) :
    drainLoop (k + 1) s
      = drainLoop k (s.drained (⟨false, BitVec.ofNat 32 s.q.length⟩ :: s.q.map popResponse)) := by
  have hcount : (BitVec.ofNat 32 s.q.length).toNat = s.q.length := by
    rw [BitVec.toNat_ofNat, Nat.mod_eq_of_lt hlen]
  have hne : BitVec.ofNat 32 s.q.length ≠ 0#32 := fun h =>
    hq (List.eq_nil_of_length_eq_zero (hcount.symm.trans (by rw [h]; rfl)))
  have hpops := presentAll_pops (s := s.respond (BitVec.ofNat 32 s.q.length)) hf rfl
  rw [drainLoop, present_pending hf hlen]
  simp only [lastData_respond, if_neg hne, hcount]
  rw [State.respond_q] at hpops
  simp [hpops, State.drained]

/-- DRAIN empties Q and changes nothing else but the log of responses (R55). -/
theorem drain_eq {s : State} (hf : s.faulted = false) (hlen : s.q.length < 2 ^ 32) :
    drain s = .next (s.drained (drainResponses s.q)) := by
  by_cases hq : s.q = []
  · rw [drain, drainLoop_empty 1 hf hq, ← State.drained_singleton hq]
    simp [drainResponses, hq]
  · have hlast := drainLoop_empty (s := s.drained (⟨false, BitVec.ofNat 32 s.q.length⟩ :: s.q.map popResponse)) 0 hf rfl
    rw [drain, drainLoop_pairs 1 hf hq hlen, hlast, ← State.drained_singleton rfl, State.drained_drained]
    simp [drainResponses, hq]

/-! ### The audio tick -/

/-- A pair with one value on both channels (R76). -/
def monoPair (y : S16) : Pair := ⟨y, y⟩

/-- The kernel's values that a FEED of `smp` pushes, the oldest first (R70, R76). -/
def tickValues (smp : S16) (s : State) : List S16 :=
  (List.range (pairCount s)).map fun k =>
    kernel s.cfg (shiftIn smp s.hist) (s.acc.toNat + s.dstRate.toNat - (k + 1) * s.srcRate.toNat) s.srcRate.toNat
      s.dstRate.toNat

@[simp] theorem tickValues_length (smp : S16) (s : State) : (tickValues smp s).length = pairCount s := by
  simp [tickValues]

theorem feedEmission_mono (smp : S16) (s : State) : (feedEmission smp s).2 = (tickValues smp s).map monoPair := by
  rw [feedEmission_pairs, tickValues, List.map_map]
  rfl

/-- A tick's responses are FEED's (0, 0) and those of DRAIN on the pairs FEED pushed (R100). -/
theorem tickResponses_eq (ys : List S16) : tickResponses ys = ⟨false, 0#32⟩ :: drainResponses (ys.map monoPair) := by
  simp [tickResponses, drainResponses, Function.comp_def, popResponse, monoPair]

/-- What R100 asks of the block before an audio tick: unfaulted and READY, Q empty, HIST not, ACC < R and P_QCAP at least
ceil(T/R). -/
structure State.TickReady (s : State) : Prop where
  unfaulted : s.faulted = false
  ready     : s.rsReady = true
  queue     : s.q = []
  hist      : s.hist ≠ []
  acc       : s.acc.toNat < s.srcRate.toNat
  capacity  : s.dstRate.toNat ≤ s.cfg.qcap * s.srcRate.toNat

/-- The state after an audio tick (R100). -/
def State.ticked (s : State) (smp : S16) : State :=
  { s with
    hist := shiftIn smp s.hist
    acc := BitVec.ofNat 25 (feedEmission smp s).1
    responses := s.responses ++ tickResponses (tickValues smp s) }

theorem State.TickReady.srcRate_ne_zero {s : State} (h : s.TickReady) : s.srcRate ≠ 0#24 := by
  intro hzero
  have hacc := h.acc
  simp [hzero] at hacc

/-- R79's ceiling: with ACC < R a FEED pushes at most ceil(T/R) pairs, and so at most P_QCAP. -/
theorem State.TickReady.pairCount_le {s : State} (h : s.TickReady) : pairCount s ≤ s.cfg.qcap := by
  have hlt : s.acc.toNat + s.dstRate.toNat < s.srcRate.toNat * (s.cfg.qcap + 1) := by
    calc s.acc.toNat + s.dstRate.toNat < s.srcRate.toNat + s.cfg.qcap * s.srcRate.toNat :=
          Nat.add_lt_add_of_lt_of_le h.acc h.capacity
      _ = s.srcRate.toNat * (s.cfg.qcap + 1) := by ring
  exact Nat.le_of_lt_succ (Nat.div_lt_of_lt_mul hlt)

/-- The state after the FEED of an audio tick (R76). -/
def State.fed (s : State) (smp : S16) : State :=
  State.respond
    { s with
      hist := shiftIn smp s.hist
      acc := BitVec.ofNat 25 (feedEmission smp s).1
      q := (tickValues smp s).map monoPair } 0#32

/-- The FEED of an audio tick pushes all its pairs (R76, R100). -/
theorem State.TickReady.present_feed {s : State} (h : s.TickReady) (smp : S16) :
    present (.feed smp) s = .next (s.fed smp) := by
  have hroom : s.q.length + pairCount s ≤ s.cfg.qcap := by simpa [h.queue] using h.pairCount_le
  rw [present_eq_exec h.unfaulted, exec_feed_room smp h.ready h.srcRate_ne_zero hroom, feedEmission_mono, h.queue]
  rfl

/-- FEED_DRAIN is FEED and then DRAIN (R55). -/
theorem audioTick_of_feed {s t : State} {smp : S16} (h : present (.feed smp) s = .next t) : audioTick smp s = drain t := by
  have hline : presentAll (lineCommands (.feedDrain smp)) s = .next t := presentAll_cons [] h
  rw [audioTick, runLine, hline]
  rfl

/-- An audio tick completes and hands the host all its pairs (R100). -/
theorem audioTick_eq {s : State} (h : s.TickReady) (smp : S16) : audioTick smp s = .next (s.ticked smp) := by
  obtain ⟨-, -, -, -, -, -, -, -, -, -, hqcap⟩ := cfg_constraints s.cfg
  have hlen : ((tickValues smp s).map monoPair).length < 2 ^ 32 := by
    rw [List.length_map, tickValues_length]
    exact (h.pairCount_le.trans hqcap).trans_lt (by decide)
  rw [audioTick_of_feed (h.present_feed smp), drain_eq (s := s.fed smp) h.unfaulted hlen]
  simp [State.drained, State.fed, State.ticked, tickResponses_eq, ← h.queue]

/-- A tick leaves ACC + T reduced below R (R76, R100). -/
theorem State.TickReady.ticked_acc {s : State} (h : s.TickReady) (smp : S16) :
    (s.ticked smp).acc.toNat = (s.acc.toNat + s.dstRate.toNat) % s.srcRate.toNat :=
  feedEmission_acc_toNat smp h.srcRate_ne_zero

/-- The shift drops HIST's oldest entry (R26, R76). -/
theorem shiftIn_eq {smp : S16} {hist : List S16} (h : hist ≠ []) : shiftIn smp hist = smp :: hist.dropLast := by
  cases hist with
  | nil => exact absurd rfl h
  | cons y ys => simp [shiftIn, List.dropLast_eq_take]

/-- Settles O38: the tick is FEED and DRAIN, and its state is written out. -/
theorem audioTickDrains : Obligations.AudioTickDrains := by
  intro s smp hf hready hq hhist hacc hcap
  have h : s.TickReady := ⟨hf, hready, hq, hhist, hacc, hcap⟩
  refine ⟨s.ticked smp, tickValues smp s, audioTick_eq h smp, hf, hq, hready, h.ticked_acc smp, shiftIn_eq hhist, rfl, rfl,
    ⟨rfl, fun _ => rfl⟩, ⟨rfl, rfl, rfl⟩, fun _ => rfl, fun _ => rfl, ⟨rfl, rfl, rfl⟩, tickValues_length smp s, rfl, ?_⟩
  rw [tickValues_length]
  rfl

/-! ### Many audio ticks -/

/-- A tick leaves the block ready for the next one (R25, R100). -/
theorem State.TickReady.ticked {s : State} (h : s.TickReady) (smp : S16) : (s.ticked smp).TickReady where
  unfaulted := h.unfaulted
  ready := h.ready
  queue := h.queue
  hist := fun hnil => List.cons_ne_nil _ _ ((shiftIn_eq h.hist).symm.trans hnil)
  acc := (h.ticked_acc smp).trans_lt (Nat.mod_lt _ (rate_pos h.srcRate_ne_zero))
  capacity := h.capacity

theorem audioTicks_eq {s : State} (h : s.TickReady) (smps : List S16) :
    audioTicks smps s = .next (smps.foldl State.ticked s) := by
  induction smps generalizing s with
  | nil => rfl
  | cons smp smps ih =>
    rw [audioTicks, audioTick_eq h smp]
    exact ih (h.ticked smp)

theorem State.TickReady.foldl_ticked {s : State} (h : s.TickReady) (smps : List S16) :
    (smps.foldl State.ticked s).TickReady := by
  induction smps generalizing s with
  | nil => exact h
  | cons smp smps ih => exact ih (h.ticked smp)

/-- ACC after N ticks: N samples of T steps each, reduced below R (R80). -/
theorem foldl_ticked_acc {s : State} (h : s.TickReady) (smps : List S16) :
    (smps.foldl State.ticked s).acc.toNat = (s.acc.toNat + smps.length * s.dstRate.toNat) % s.srcRate.toNat := by
  induction smps generalizing s with
  | nil => simp [Nat.mod_eq_of_lt h.acc]
  | cons smp smps ih =>
    rw [List.foldl_cons, ih (h.ticked smp), h.ticked_acc smp]
    simp only [State.ticked, Nat.mod_add_mod, List.length_cons]
    congr 1
    ring

/-- The kernel's values that each tick of a run pushes, tick by tick (R100). -/
def runValues : List S16 → State → List (List S16)
  | [], _ => []
  | smp :: smps, s => tickValues smp s :: runValues smps (s.ticked smp)

@[simp] theorem runValues_length (smps : List S16) (s : State) : (runValues smps s).length = smps.length := by
  induction smps generalizing s with
  | nil => rfl
  | cons smp smps ih => simp [runValues, ih]

theorem foldl_ticked_responses (smps : List S16) (s : State) :
    (smps.foldl State.ticked s).responses = s.responses ++ (runValues smps s).flatMap tickResponses := by
  induction smps generalizing s with
  | nil => simp [runValues]
  | cons smp smps ih => simp [runValues, ih, State.ticked]

/-- Dividing in two steps: what the first division leaves is carried into the second. -/
theorem div_add_carry (a b : Nat) {r : Nat} (hr : 0 < r) : a / r + (a % r + b) / r = (a + b) / r := by
  conv_rhs => rw [← Nat.div_add_mod a r, Nat.add_assoc, Nat.mul_add_div hr]

/-- N ticks push floor((ACC + N*T)/R) pairs: what a tick leaves in ACC is what it did not divide (R80). -/
theorem runValues_count {s : State} (h : s.TickReady) (smps : List S16) :
    ((runValues smps s).map List.length).sum = (s.acc.toNat + smps.length * s.dstRate.toNat) / s.srcRate.toNat := by
  induction smps generalizing s with
  | nil => simp [runValues, Nat.div_eq_of_lt h.acc]
  | cons smp smps ih =>
    have hrest := ih (h.ticked smp)
    rw [h.ticked_acc smp] at hrest
    calc ((runValues (smp :: smps) s).map List.length).sum
        = pairCount s + ((runValues smps (s.ticked smp)).map List.length).sum := by simp [runValues]
      _ = (s.acc.toNat + s.dstRate.toNat) / s.srcRate.toNat
            + ((s.acc.toNat + s.dstRate.toNat) % s.srcRate.toNat + smps.length * s.dstRate.toNat) / s.srcRate.toNat := by
          rw [hrest]; rfl
      _ = (s.acc.toNat + s.dstRate.toNat + smps.length * s.dstRate.toNat) / s.srcRate.toNat :=
          div_add_carry _ _ (rate_pos h.srcRate_ne_zero)
      _ = (s.acc.toNat + (smps.length + 1) * s.dstRate.toNat) / s.srcRate.toNat := by congr 1; ring

/-- The state after RS_RESET (R71). -/
def State.sessionStart (s : State) : State :=
  State.respond { s with acc := 0#25, hist := List.replicate s.cfg.histLen 0#16, q := [], rsReady := true } 0#32

/-- RS_RESET makes an unfaulted block ready for audio ticks, if its rates and its capacity are (R71, R100). -/
theorem tickReady_sessionStart {s : State} (hf : s.faulted = false) (hr : s.srcRate ≠ 0#24)
    (hcap : s.dstRate.toNat ≤ s.cfg.qcap * s.srcRate.toNat) : s.sessionStart.TickReady where
  unfaulted := hf
  ready := rfl
  queue := rfl
  hist := by
    obtain ⟨-, -, -, -, -, -, -, -, hlen, -⟩ := cfg_constraints s.cfg
    exact mt (List.replicate_eq_nil_iff _).1 (Nat.ne_of_gt hlen)
  acc := rate_pos hr
  capacity := hcap

/-- Settles O56: N ticks from ACC = 0 divide N*T by R. -/
theorem audioTicksConserveSamples : Obligations.AudioTicksConserveSamples := by
  intro s smps hf hr hcap
  have h := tickReady_sessionStart hf hr hcap
  have hend := h.foldl_ticked smps
  have hzero : s.sessionStart.acc.toNat = 0 := rfl
  have hcount := runValues_count h smps
  have hacc := foldl_ticked_acc h smps
  rw [hzero, Nat.zero_add] at hcount hacc
  exact ⟨s.sessionStart, _, runValues smps s.sessionStart, (present_eq_exec hf .rsReset).trans exec_rsReset,
    audioTicks_eq h smps, hend.unfaulted, hend.ready, hend.queue, runValues_length _ _, foldl_ticked_responses _ _,
    hcount, hacc.trans Nat.mod_eq_sub_mul_div⟩

end Sys2Proof.Machine
end

section
/-! The Color Table of spec/40_palette.md: scale8, Entry, and the commands BUILD and LUT_READ (O13 to O17). -/

namespace Sys2Proof.Machine

/-! ### scale8 -/

/-- R56's integer form: the clamp keeps the quotient in a byte. -/
theorem scale8_toNat (fden : Nat) (c : U8) (m : Nat) :
    (scale8 fden c m).toNat = min 255 ((2 * c.toNat * m + fden) / (2 * fden)) := by
  rw [scale8, BitVec.toNat_ofNat, Nat.mod_eq_of_lt (by omega)]

/-- Rounding half up to the nearest integer is one natural division (R10). -/
theorem roundHalfUp_div (n : Nat) {d : Nat} (hd : 1 ≤ d) :
    roundHalfUp ((n : ℚ) / d) = ((2 * n + d) / (2 * d) : Nat) := by
  have hd' : (d : ℚ) ≠ 0 := Nat.cast_ne_zero.2 (Nat.ne_of_gt hd)
  have hhalf : (n : ℚ) / d + 1 / 2 = ((2 * n + d : Nat) : ℚ) / ((2 * d : Nat) : ℚ) := by
    push_cast
    field_simp
  rw [roundHalfUp, hhalf, Rat.floor_natCast_div_natCast, Int.natCast_ediv]

theorem clamp8_natCast (n : Nat) : clamp8 n = (min 255 n : Nat) := by
  rw [clamp8]
  omega

/-- The half added for rounding is below one. -/
theorem half_div {d : Nat} (hd : 1 ≤ d) : d / (2 * d) = 0 := Nat.div_eq_of_lt (by omega)

theorem scale8_zero_channel {fden : Nat} (hd : 1 ≤ fden) (m : Nat) : scale8 fden 0#8 m = 0#8 := by
  simp [scale8, half_div hd]

theorem scale8_zero_factor {fden : Nat} (hd : 1 ≤ fden) (c : U8) : scale8 fden c 0 = 0#8 := by
  simp [scale8, half_div hd]

/-- The factor 1 leaves a channel as it is (R7, R57). -/
theorem scale8_one {fden : Nat} (hd : 1 ≤ fden) (c : U8) : scale8 fden c fden = c := by
  have hquot : (2 * c.toNat * fden + fden) / (2 * fden) = c.toNat := by
    rw [show 2 * c.toNat * fden + fden = fden + 2 * fden * c.toNat by ring, Nat.add_mul_div_left _ _ (by omega),
      half_div hd, Nat.zero_add]
  apply BitVec.eq_of_toNat_eq
  rw [scale8_toNat, hquot]
  exact Nat.min_eq_right (Nat.le_of_lt_succ c.isLt)

/-- Settles O13: rounding half up and clamping are R56's integer division and minimum. -/
theorem scaleIsExactRoundThenClamp : Obligations.ScaleIsExactRoundThenClamp := by
  refine ⟨fun fden m c hd => ⟨?_, scale8_toNat fden c m, scale8_zero_channel hd m, scale8_zero_factor hd c⟩,
    by decide, by decide⟩
  rw [← Nat.cast_mul, roundHalfUp_div _ hd, clamp8_natCast, scale8_toNat, Nat.mul_assoc]

/-! ### Entry -/

theorem entry_of_emphasis_zero (c : Cfg) {i : U9} (he : emphasis i = 0) : entry c i = c.base.getD (hue i) 0#24 :=
  if_pos he

/-- For the emphasis values 1 to 7 an entry is made of its scaled channels (R57). -/
theorem entry_channels (c : Cfg) {i : U9} (he : emphasis i ≠ 0) :
    red (entry c i) = scale8 c.fden (red (c.base.getD (hue i) 0#24)) (c.fnumR.getD (emphasis i) 0)
    ∧ green (entry c i) = scale8 c.fden (green (c.base.getD (hue i) 0#24)) (c.fnumG.getD (emphasis i) 0)
    ∧ blue (entry c i) = scale8 c.fden (blue (c.base.getD (hue i) 0#24)) (c.fnumB.getD (emphasis i) 0) := by
  simp only [entry, if_neg he]
  exact channels_of_color _ _ _

/-- Settles O14: for e = 0 the factors are 1, which scaling does not see; for any other e the entry is made of its channels. -/
theorem entryChannelsAreScaled : Obligations.EntryChannelsAreScaled := by
  intro c i
  by_cases he : emphasis i = 0
  · obtain ⟨hfacR, hfacG, hfacB⟩ := cfg_factor_zero c
    obtain ⟨-, -, -, -, -, hfden, -⟩ := cfg_constraints c
    have hone (v : U8) : v = scale8 c.fden v c.fden := (scale8_one hfden v).symm
    rw [entry_of_emphasis_zero c he, he, hfacR, hfacG, hfacB]
    exact ⟨hone _, hone _, hone _, fun _ => rfl, he ▸ index_split i⟩
  · obtain ⟨hred, hgreen, hblue⟩ := entry_channels c he
    exact ⟨hred, hgreen, hblue, fun hzero => absurd hzero he, index_split i⟩

/-! ### BUILD and LUT_READ -/

/-- Settles O15: BUILD's writes are read back as Entry, and the second time it is the fault procedure. -/
theorem buildWritesTheTableOnce : Obligations.BuildWritesTheTableOnce := by
  refine ⟨rfl, fun s => ⟨fun hnew => ?_, fun hbuilt => ⟨_, exec_build_again hbuilt, trapped_raiseFault _ _ _⟩⟩⟩
  exact ⟨_, exec_build_new hnew, ctRead_of_tableWrites rfl, rfl, rfl, ⟨rfl, rfl, rfl, rfl, rfl, rfl⟩, ⟨rfl, rfl, rfl⟩,
    fun _ => rfl, fun _ => rfl, rfl, rfl, rfl⟩

/-- A response changes the log of responses alone (R47). -/
theorem onlyAnswered_respond (s : State) (v : U32) : OnlyAnswered s (s.respond v) v :=
  ⟨rfl, ⟨rfl, fun _ => rfl⟩, ⟨rfl, rfl, rfl, rfl, rfl, rfl⟩, ⟨rfl, rfl, rfl⟩, fun _ => rfl, fun _ => rfl, rfl, rfl, rfl⟩

/-- LUT_READ's word: OP, zeros and the index (R49, R60). -/
theorem encode_lutRead (idx : U9) : encode (.lutRead idx) = 0x03#8 ++ 0#15 ++ idx := by
  rw [encode, BitVec.append_def, BitVec.setWidth'_eq]
  rfl

/-- Settles O16: the built table answers its entry, the unbuilt one is the fault procedure. -/
theorem lutReadAnswersTheEntry : Obligations.LutReadAnswersTheEntry := by
  intro s idx
  refine ⟨encode_lutRead idx, fun hbuilt => ⟨_, exec_lutRead_built idx hbuilt, ?_⟩,
    fun hunbuilt => ⟨_, exec_lutRead_unbuilt idx hunbuilt, ?_⟩⟩
  · rw [zext32_eq_zeros (n := 8) rfl]
    exact onlyAnswered_respond s _
  · rw [zext32_eq_zeros (n := 23) rfl]
    exact trapped_raiseFault _ _ _

/-- Settles O17: the invariant holds the built table at Entry. -/
theorem builtTableAnswersEntry : Obligations.BuiltTableAnswersEntry := by
  intro s idx hinv hbuilt
  obtain ⟨-, hread, -⟩ := lutReadAnswersTheEntry s idx
  obtain ⟨t, he, hanswered, -⟩ := hread hbuilt
  rw [hinv.table hbuilt idx] at hanswered
  exact ⟨t, he, hanswered⟩

end Sys2Proof.Machine
end

section
/-! The host's video frame of spec/70_reset_and_hazards.md R99: its writes of IN, and the CONVERT after them (O24). -/

namespace Sys2Proof.Machine

/-- The state after the host has written a whole frame into IN, cell 0 first (R99). -/
def State.framed (s : State) (cells : List U16) : State :=
  { s with inMem := s.inMem.writeAll (cells.zipIdx.reverse.map fun c => (c.2, c.1)) }

@[simp] theorem State.framed_cfg (s : State) (cells : List U16) : (s.framed cells).cfg = s.cfg := rfl

/-- The host's writes inside IN are all made, the first first (R33, R40). -/
theorem hostDoAll_writeIn {cs : List (U16 × Nat)} {s : State} (h : ∀ c ∈ cs, c.2 < inSize s.cfg) :
    hostDoAll (cs.map fun c => .writeIn c.2 c.1) s
      = .next { s with inMem := s.inMem.writeAll (cs.reverse.map fun c => (c.2, c.1)) } := by
  induction cs generalizing s with
  | nil => rfl
  | cons c cs ih =>
    have hwrite : hostDo (.writeIn c.2 c.1) s = .next { s with inMem := s.inMem.set c.2 c.1 } :=
      if_pos (h c List.mem_cons_self)
    have hrest := ih (s := { s with inMem := s.inMem.set c.2 c.1 }) fun d hd => h d (List.mem_cons_of_mem c hd)
    rw [List.map_cons, hostDoAll, hwrite]
    refine hrest.trans ?_
    simp [Memory.writeAll]

theorem hostDoAll_frameWrites {cells : List U16} {s : State} (hlen : cells.length = inSize s.cfg) :
    hostDoAll (frameWrites cells) s = .next (s.framed cells) :=
  hostDoAll_writeIn fun _ hc => hlen ▸ List.snd_lt_of_mem_zipIdx hc

/-- A written frame reads back cell by cell: its addresses are all different (R28). -/
theorem inRead_framed (s : State) {cells : List U16} {a : Nat} {c : U16} (hc : cells[a]? = some c) :
    inRead (s.framed cells) a = c := by
  have hget := Memory.get?_writeAll_map s.inMem Prod.snd Prod.fst (xs := cells.zipIdx.reverse) (x := (c, a))
    (by simpa [List.mem_zipIdx_iff_getElem?] using hc) ?_
  · rw [inRead, State.framed, hget, Option.getD_some]
  · rintro ⟨d, b⟩ hd rfl
    rw [List.mem_reverse, List.mem_zipIdx_iff_getElem?] at hd
    exact Option.some.inj (hd.symm.trans hc)

/-- A whole frame has a cell for each logical pixel (R34). -/
theorem exists_cell {c : Cfg} {cells : List U16} (hlen : cells.length = inSize c) {x y : Nat} (hx : x < c.width)
    (hy : y < c.height) : ∃ cell ∈ cells, cells[inAddr c x y]? = some cell := by
  have hlt : inAddr c x y < cells.length := hlen ▸ inAddr_lt c hx hy
  exact ⟨_, List.getElem_mem hlt, List.getElem?_eq_getElem hlt⟩

/-- The state after CONVERT on a frame of palette indices (R64). -/
def State.converted (s : State) : State :=
  State.respond { s with out := s.out.writeAll ((pixels s.cfg).map (pixelWrite s)) } 0#32

theorem outRead_converted (s : State) {x y : Nat} (hx : x < s.cfg.width) (hy : y < s.cfg.height) :
    outRead s.converted (outAddr s.cfg x y) = pack15 (ctRead s (cellIndex (inRead s (inAddr s.cfg x y))).toNat) := by
  rw [State.converted, outRead_respond, outRead, get?_pixelWrites s s.out hx hy]
  rfl

/-- A whole frame of palette indices is written and converted (R64, R99). -/
theorem videoFrame_eq {s : State} {cells : List U16} (hf : s.faulted = false) (hbuilt : s.palBuilt = true)
    (hlen : cells.length = inSize s.cfg) (hcells : ∀ c ∈ cells, badCell c = false) :
    videoFrame cells s = .next (s.framed cells).converted := by
  have hgood : firstBad (s.framed cells) = none := (firstBad_none _).2 fun x y hx hy => by
    obtain ⟨c, hmem, hc⟩ := exists_cell hlen hx hy
    rw [State.framed_cfg, inRead_framed s hc]
    exact hcells c hmem
  rw [videoFrame, hostDoAll_frameWrites hlen]
  exact (present_eq_exec (s := s.framed cells) hf .convert).trans (exec_convert_good hbuilt hgood)

/-- Settles O24: the frame's cells are what CONVERT reads, and the invariant holds the built table at Entry. -/
theorem videoFrameReachesTheSink : Obligations.VideoFrameReachesTheSink := by
  intro s cells hinv hf hbuilt hlen hcells
  refine ⟨_, videoFrame_eq hf hbuilt hlen hcells, hf, rfl, fun x y hx hy => ?_, ?_⟩
  · obtain ⟨c, -, hc⟩ := exists_cell hlen hx hy
    refine ⟨c, hc, (outRead_converted (s.framed cells) hx hy).trans ?_⟩
    rw [State.framed_cfg, inRead_framed s hc]
    exact congrArg pack15 (hinv.table hbuilt (cellIndex c))
  · exact if_pos List.getLast?_concat

end Sys2Proof.Machine
end

section
/-! The Frame Converter of spec/41_frame_converter.md: pack15, and what a CONVERT that completes and one that meets a bad cell
leave (O19 to O23). -/

namespace Sys2Proof.Machine

/-! ### pack15 -/

/-- Masking a colour with the five bits from `k` on keeps those bits and clears the others. -/
theorem getLsbD_and_fiveBits (rgb : U24) (k j : Nat) :
    (rgb &&& (0x1F#24 <<< k)).getLsbD j = (decide (k ≤ j ∧ j < k + 5) && rgb.getLsbD j) := by
  have hmask : ∀ n, (0x1F#24).getLsbD n = decide (n < 5) := fun n => by
    rw [show 0x1F#24 = (BitVec.allOnes 5).setWidth 24 by decide, BitVec.getLsbD_setWidth, BitVec.getLsbD_allOnes]
    simp only [← Bool.decide_and, decide_eq_decide]
    omega
  rw [BitVec.getLsbD_and, BitVec.getLsbD_shiftLeft, hmask, Bool.and_comm]
  by_cases hj : j < 24
  · simp only [hj, decide_true, Bool.true_and, ← decide_not, ← Bool.decide_and]
    congr 2
    simp only [eq_iff_iff]
    omega
  · simp [BitVec.getLsbD_of_ge rgb j (by omega)]

/-- pack15 bit by bit: blue's five bits, then green's, then red's, then zeros (R62). -/
theorem getLsbD_pack15 (rgb : U24) (j : Nat) :
    (pack15 rgb).getLsbD j
      = if j < 5 then rgb.getLsbD (3 + j) else if j < 10 then rgb.getLsbD (6 + j)
        else if j < 15 then rgb.getLsbD (9 + j) else false := by
  rw [pack15, show 0xF80000#24 = 0x1F#24 <<< 19 by decide, show 0x00F800#24 = 0x1F#24 <<< 11 by decide,
    show 0x0000F8#24 = 0x1F#24 <<< 3 by decide]
  simp only [BitVec.getLsbD_setWidth, BitVec.getLsbD_or, BitVec.getLsbD_ushiftRight, getLsbD_and_fiveBits]
  split_ifs <;> simp (disch := omega) only [decide_eq_true, decide_eq_false, Bool.true_and, Bool.false_and, Bool.and_false,
    Bool.false_or, Bool.or_false]

/-- A field of pack15 is the field of the colour that has its bits. -/
theorem extract_pack15 (rgb : U24) {a b : Nat} (h : ∀ j, j < 5 → (pack15 rgb).getLsbD (a + j) = rgb.getLsbD (b + j)) :
    BitVec.extractLsb' a 5 (pack15 rgb) = BitVec.extractLsb' b 5 rgb := by
  refine BitVec.eq_of_getLsbD_eq fun j hj => ?_
  rw [BitVec.getLsbD_extractLsb', BitVec.getLsbD_extractLsb', h j hj]

/-- Settles O19: pack15 bit by bit gives its fields. -/
theorem packKeepsTheHighFiveBits : Obligations.PackKeepsTheHighFiveBits := by
  refine ⟨fun rgb => ⟨getLsbD_pack15 rgb 15, ?_, ?_, ?_⟩, by decide, by decide, by decide, by decide⟩
  · refine extract_pack15 rgb fun j hj => ?_
    rw [getLsbD_pack15, if_neg (by omega), if_neg (by omega), if_pos (by omega), ← Nat.add_assoc]
  · refine extract_pack15 rgb fun j hj => ?_
    rw [getLsbD_pack15, if_neg (by omega), if_pos (by omega), ← Nat.add_assoc]
  · refine extract_pack15 rgb fun j hj => ?_
    rw [getLsbD_pack15, if_pos (by omega), Nat.zero_add]

/-! ### A CONVERT that completes -/

/-- CONVERT completes on a frame of palette indices (R64). -/
theorem exec_convert_of_frameOk {s : State} (hbuilt : s.palBuilt = true) (hframe : FrameOk s) :
    exec .convert s = .next s.converted :=
  exec_convert_good hbuilt ((firstBad_none s).2 hframe)

/-- CONVERT leaves padding and extra rows of OUT as they are (R64). -/
theorem outRead_converted_other {s : State} {a : Nat} (ha : ¬ IsLogical s.cfg a) : outRead s.converted a = outRead s a := by
  rw [State.converted, outRead_respond, outRead, get?_pixelWrites_other s s.out ha]
  rfl

/-- A CONVERT that completes writes OUT and answers, and changes nothing else (R64). -/
theorem converted_frame (s : State) :
    Answered s s.converted false 0#32 ∧ SameTable s s.converted ∧ SameResampler s s.converted ∧ SameRecord s s.converted
      ∧ SameIn s s.converted ∧ SameHost s s.converted :=
  ⟨rfl, ⟨rfl, fun _ => rfl⟩, ⟨rfl, rfl, rfl, rfl, rfl, rfl⟩, ⟨rfl, rfl, rfl⟩, fun _ => rfl, rfl, rfl, rfl⟩

/-- After a CONVERT that completes, OUT's logical pixels are the values it wrote, whatever OUT held (R65). -/
theorem logicalPixels_converted (s : State) :
    s.converted.logicalPixels = (pixels s.cfg).map fun p => (pixelWrite s p).2 := by
  rw [State.logicalPixels, show s.converted.cfg = s.cfg from rfl, logicalAddrs, List.map_map]
  refine List.map_congr_left ?_
  rintro ⟨x, y⟩ hp
  obtain ⟨hx, hy⟩ := (mem_pixels _ _ _).1 hp
  exact outRead_converted s hx hy

/-! ### A CONVERT that meets a bad cell -/

/-- CONVERT faults at the pixel whose cell is the first that is no index (R64). -/
theorem exec_convert_firstBad {s : State} {x y : Nat} (hbuilt : s.palBuilt = true) (hx : x < s.cfg.width)
    (hy : y < s.cfg.height) (hbad : badCell (inRead s (inAddr s.cfg x y)) = true)
    (hbelow : ∀ b, b < inAddr s.cfg x y → badCell (inRead s b) = false) :
    exec .convert s = .next (s.scrambleLogical.raiseFault .indexRange (zextNat (inAddr s.cfg x y))) :=
  exec_convert_bad hbuilt (firstBad_some.2 ⟨inAddr_lt s.cfg hx hy, hbad, hbelow⟩)

/-- Making the logical cells of OUT draws is seen in OUT alone (R66, R85). -/
theorem trapped_scrambleLogical (s : State) (c : Cause) (info : U32) :
    Trapped s (s.scrambleLogical.raiseFault c info) c info :=
  (trapped_raiseFault s.scrambleLogical c info).1

theorem toNat_zextNat {n : Nat} (hn : n < 2 ^ 32) : (zextNat n).toNat = n := by
  rw [zextNat_eq hn, BitVec.toNat_ofNat, Nat.mod_eq_of_lt hn]

/-! ### The obligations -/

/-- Settles O20: the two ways a built CONVERT ends, and the fault procedure alone while the table is not built. -/
theorem convertTranslatesTheFrame : Obligations.ConvertTranslatesTheFrame := by
  refine ⟨rfl, fun _ => bne_iff_ne, fun s hbuilt hframe => ?_, fun s x y hbuilt hx hy hbad hbelow => ?_,
    fun s hunbuilt => ⟨_, exec_convert_unbuilt hunbuilt, trapped_raiseFault s _ _⟩⟩
  · exact ⟨_, exec_convert_of_frameOk hbuilt hframe, fun x y hx hy => outRead_converted s hx hy,
      fun a ha => outRead_converted_other ha, converted_frame s⟩
  · exact ⟨_, exec_convert_firstBad hbuilt hx hy hbad hbelow, trapped_scrambleLogical s _ _, toNat_zextNat,
      fun a ha => outRead_scrambleLogical_other ha⟩

/-- Settles O22: the value written at a pixel is made of its cell and, by the invariant, of Entry, which the two states share. -/
theorem convertDependsOnlyOnFrame : Obligations.ConvertDependsOnlyOnFrame := by
  intro s₁ s₂ t₁ t₂ hinv₁ hinv₂ hcfg hin hbuilt₁ hbuilt₂ hframe₁ hexec₁ hexec₂
  have hcell : ∀ {x y}, x < s₁.cfg.width → y < s₁.cfg.height →
      inRead s₁ (inAddr s₁.cfg x y) = inRead s₂ (inAddr s₂.cfg x y) := fun hx hy =>
    hcfg ▸ hin _ (inAddr_lt s₁.cfg hx hy)
  have hframe₂ : FrameOk s₂ := fun x y hx hy => by
    rw [← hcfg] at hx hy
    exact hcell hx hy ▸ hframe₁ x y hx hy
  obtain rfl : s₁.converted = t₁ := Host.Outcome.next.inj ((exec_convert_of_frameOk hbuilt₁ hframe₁).symm.trans hexec₁)
  obtain rfl : s₂.converted = t₂ := Host.Outcome.next.inj ((exec_convert_of_frameOk hbuilt₂ hframe₂).symm.trans hexec₂)
  rw [logicalPixels_converted, logicalPixels_converted, ← hcfg]
  refine List.map_congr_left ?_
  rintro ⟨x, y⟩ hp
  obtain ⟨hx, hy⟩ := (mem_pixels _ _ _).1 hp
  simp only [pixelWrite]
  rw [hinv₁.table hbuilt₁, hinv₂.table hbuilt₂, hcell hx hy, hcfg]

/-- Settles O23: every cell's index is `i`, and CONVERT leaves all that the second CONVERT reads as it was. -/
theorem uniformFrameConverts : Obligations.UniformFrameConverts := by
  intro s i hbuilt hin
  have hcell : ∀ {x y}, x < s.cfg.width → y < s.cfg.height → inRead s (inAddr s.cfg x y) = 0#7 ++ i := fun hx hy =>
    hin _ (inAddr_lt s.cfg hx hy)
  obtain ⟨hgood, hindex⟩ := cell_of_index i
  have hframe : FrameOk s := fun x y hx hy => hcell hx hy ▸ hgood
  refine ⟨s.converted, s.converted.converted, exec_convert_of_frameOk hbuilt hframe,
    exec_convert_of_frameOk (s := s.converted) hbuilt hframe, ?_, fun a ha => outRead_converted_other ha, ?_⟩
  · rintro a ⟨x, y, hx, hy, rfl⟩
    rw [outRead_converted s hx hy, hcell hx hy, hindex]
  · rw [logicalPixels_converted, logicalPixels_converted]
    rfl

/-- Settles O21: the fault's draws are OUT's logical cells, and an address that does not fit FAULT_INFO is a free value. -/
theorem indexRangeLeavesDraws : Obligations.IndexRangeLeavesDraws := by
  intro s x y hbuilt hx hy hbad hbelow
  exact ⟨_, exec_convert_firstBad hbuilt hx hy hbad hbelow, fun a ha => outRead_scrambleLogical ha, rfl, rfl, zextNat_free⟩

end Sys2Proof.Machine
end

section
/-! The commands of the Audio Resampler Bridge, spec/42_resampler.md R71 to R79: their words, what each one writes and leaves
unchanged, and how many pairs a FEED pushes (O25 to O29, O31, O34, O35). -/

namespace Sys2Proof.Machine

/-! ### Words and frames -/

/-- An operand put below an opcode's bits is a concatenation (R48, R49). -/
theorem append_eq_or {n k : Nat} (op : BitVec n) (v : BitVec k) :
    op ++ v = op.setWidth (n + k) <<< k ||| v.setWidth (n + k) := by
  rw [BitVec.append_def, BitVec.setWidth'_eq, BitVec.shiftLeftZeroExtend_eq]

theorem encode_setSrcRate (rate : U24) : encode (.setSrcRate rate) = 0x11#8 ++ rate := (append_eq_or 0x11#8 rate).symm

theorem encode_setDstRate (rate : U24) : encode (.setDstRate rate) = 0x12#8 ++ rate := (append_eq_or 0x12#8 rate).symm

theorem encode_feed (smp : S16) : encode (.feed smp) = 0x15#8 ++ 0#8 ++ smp := (append_eq_or (0x15#8 ++ 0#8) smp).symm

/-- Two commands have two words (R50). -/
theorem encode_injective : Function.Injective encode := fun i j h =>
  Except.ok.inj ((decode_encode i).symm.trans ((congrArg decode h).trans (decode_encode j)))

theorem readsStatus_feed (smp : S16) : readsStatus (encode (.feed smp)) = false := by
  rw [Bool.eq_false_iff, ne_eq, readsStatus_iff]
  rintro (hw | hw)
  · cases encode_injective (a₂ := .readStatus) hw
  · cases encode_injective (a₂ := .readFaultInfo) hw

/-- A command that writes registers of the resampler alone and responds leaves every other part of the state as it was. -/
theorem resamplerUpdate_frame {s t : State} {src dst : U24} {ready : Bool} {acc : U25} {hist : List S16} {q : List Pair}
    {v : U32} (h : t = State.respond
      { s with srcRate := src, dstRate := dst, rsReady := ready, acc := acc, hist := hist, q := q } v) :
    Answered s t false v ∧ SameTable s t ∧ SameRecord s t ∧ SameIn s t ∧ SameOut s t ∧ SameHost s t := by
  subst h
  exact ⟨rfl, ⟨rfl, fun _ => rfl⟩, ⟨rfl, rfl, rfl⟩, fun _ => rfl, fun _ => rfl, rfl, rfl, rfl⟩

/-! ### FEED -/

/-- Settles O29: FEED's cases, with the emission loop's ACC and pairs written out. -/
theorem feedRunsTheEmissionLoop : Obligations.FeedRunsTheEmissionLoop := by
  intro s smp
  refine ⟨encode_feed smp, fun hready hrate hhist hroom => ?completes,
    fun hready => ⟨_, exec_feed_notReady smp hready, trapped_raiseFault _ _ _⟩, fun hready hrate hlen hfull => ?overflows⟩
  case completes =>
    exact ⟨_, exec_feed_room smp hready hrate hroom, shiftIn_eq hhist, feedEmission_acc_toNat smp hrate,
      congrArg (s.q ++ ·) (feedEmission_pairs smp s), rfl, rfl, hready, resamplerUpdate_frame rfl⟩
  case overflows =>
    obtain ⟨-, -, -, -, -, -, -, -, -, -, hqcap⟩ := cfg_constraints s.cfg
    have hexec := exec_feed_overflow smp hready hrate hfull
    rw [zextNat_eq ((hlen.trans hqcap).trans_lt (by decide))] at hexec
    exact ⟨_, hexec, trapped_raiseFault _ _ _⟩

/-- A command that leaves the block unfaulted has had its own effect (R85). -/
theorem exec_unfaulted {i : Instr} {s t : State} (h : exec i s = .next t) (hf : t.faulted = false) :
    ∃ u v, OwnEffect s u v i ∧ t = u.respond v := by
  rcases exec_next h with hu | ⟨c, info, -, rfl⟩
  · exact hu
  · cases hf

/-- R79: with ACC < R a FEED's count is floor(T/R) or one more, and at most ceil(T/R). -/
theorem pairCount_bounds {s : State} (hacc : s.acc.toNat < s.srcRate.toNat) :
    s.dstRate.toNat / s.srcRate.toNat ≤ pairCount s ∧ pairCount s ≤ s.dstRate.toNat / s.srcRate.toNat + 1
      ∧ pairCount s ≤ (s.dstRate.toNat + s.srcRate.toNat - 1) / s.srcRate.toNat := by
  refine ⟨Nat.div_le_div_right (by omega), ?_, Nat.div_le_div_right (by omega)⟩
  rw [← Nat.add_div_right _ (by omega)]
  exact Nat.div_le_div_right (by omega)

/-- Settles O31: a FEED that completes pushes as many pairs as it counts, and leaves ACC + T reduced below R. -/
theorem feedCountIsBounded : Obligations.FeedCountIsBounded := by
  intro s t smp _ hacc _ hfeed hf
  obtain ⟨u, v, ⟨-, hrate, -, rfl, -⟩, rfl⟩ := exec_unfaulted hfeed hf
  have hlen : (s.q ++ (feedEmission smp s).2).length = s.q.length + pairCount s := by simp
  obtain ⟨hlow, hhigh, hceil⟩ := pairCount_bounds hacc
  refine ⟨?_, hlen.trans_le (Nat.add_le_add_left hceil _), hlen, ?_⟩
  · simp only [State.respond_q, hlen]
    omega
  · exact (feedEmission_acc_toNat smp hrate).trans_lt (Nat.mod_lt _ (rate_pos hrate))

/-! ### PENDING and POP -/

/-- Settles O34: P_QCAP is below 2^16, so the count is its own word. -/
theorem pendingCountsPairs : Obligations.PendingCountsPairs := by
  refine ⟨rfl, fun s hlen => ?_⟩
  obtain ⟨-, -, -, -, -, -, -, -, -, -, hqcap⟩ := cfg_constraints s.cfg
  have hlt : s.q.length < 2 ^ 16 := (hlen.trans hqcap).trans_lt (by decide)
  have hword : zextNat s.q.length = 0#16 ++ BitVec.ofNat 16 s.q.length := by
    have hzeros : zext32 (BitVec.ofNat 16 s.q.length) = 0#16 ++ BitVec.ofNat 16 s.q.length :=
      zext32_eq_zeros (n := 16) rfl _
    rw [← hzeros, zext32, zextNat_eq (hlt.trans (by decide)), BitVec.setWidth_ofNat_of_le_of_lt (by decide) hlt]
  exact ⟨_, exec_pending, hword ▸ onlyAnswered_respond s _, hlt⟩

/-- Settles O35: POP's two cases, and the fields of its word. -/
theorem popAnswersTheOldestPair : Obligations.PopAnswersTheOldestPair := by
  refine ⟨rfl, fun s => ⟨fun p rest hq => ?_, fun hq => ⟨_, exec_pop_empty hq, trapped_raiseFault _ _ _⟩⟩⟩
  obtain ⟨hleft, hright⟩ := pop_word_fields p.left p.right
  obtain ⟨hanswered, hframe⟩ := resamplerUpdate_frame (s := s) (q := rest) (v := p.right ++ p.left) rfl
  exact ⟨_, _, exec_pop_pair hq, hanswered, rfl, hleft, hright, rfl, rfl, rfl, rfl, rfl, rfl, hframe⟩

/-! ### RS_RESET and the rates -/

/-- Settles O25: RS_RESET's effect, which a second RS_RESET repeats. -/
theorem rsResetClearsTheResampler : Obligations.RsResetClearsTheResampler := by
  refine ⟨rfl, fun s => ⟨s.sessionStart, exec_rsReset, rfl, rfl, rfl, rfl, rfl, rfl, ?_⟩⟩
  obtain ⟨hanswered, htable, hrecord, hin, hout, hhost⟩ := resamplerUpdate_frame (t := s.sessionStart) rfl
  exact ⟨hanswered, htable, hrecord, hin, hout, hhost, exec_rsReset⟩

/-- Settles O26: SET_SRC_RATE's two cases. -/
theorem setSrcRateStoresAndUnreadies : Obligations.SetSrcRateStoresAndUnreadies := by
  refine fun s rate => ⟨encode_setSrcRate rate, fun hrate => ?_, ?_⟩
  · exact ⟨_, exec_setSrcRate hrate, rfl, rfl, rfl, rfl, rfl, rfl, resamplerUpdate_frame rfl⟩
  · rintro rfl
    exact ⟨_, exec_setSrcRate_zero, trapped_raiseFault _ _ _⟩

/-- Settles O27: SET_DST_RATE's two cases. -/
theorem setDstRateStoresAndUnreadies : Obligations.SetDstRateStoresAndUnreadies := by
  refine fun s rate => ⟨encode_setDstRate rate, fun hrate => ?_, ?_⟩
  · exact ⟨_, exec_setDstRate hrate, rfl, rfl, rfl, rfl, rfl, rfl, resamplerUpdate_frame rfl⟩
  · rintro rfl
    exact ⟨_, exec_setDstRate_zero, trapped_raiseFault _ _ _⟩

/-- Settles O28: each rate's word is the rate below zeros. -/
theorem getRatesAnswerTheRates : Obligations.GetRatesAnswerTheRates := by
  have hword (rate : U24) : zext32 rate = 0#8 ++ rate := zext32_eq_zeros (n := 8) rfl rate
  exact ⟨rfl, rfl, fun s => ⟨⟨_, exec_getSrcRate, hword _ ▸ onlyAnswered_respond s _⟩,
    ⟨_, exec_getDstRate, hword _ ▸ onlyAnswered_respond s _⟩⟩⟩

end Sys2Proof.Machine
end

section
/-! Runs of the resampler, spec/42_resampler.md R80: how many pairs the FEEDs after an RS_RESET push (O32), and that what they
push is a function of the configuration, the rates and the samples (O33). -/

namespace Sys2Proof.Machine

/-! ### Runs of commands -/

/-- A run of commands that answers a next state answers one after its first command. -/
theorem presentAll_cons_next {i : Instr} {is : List Instr} {s t : State} (h : presentAll (i :: is) s = .next t) :
    ∃ u, present i s = .next u ∧ presentAll is u = .next t := by
  cases hpresent : present i s with
  | next u => exact ⟨u, rfl, (presentAll_cons is hpresent).symm.trans h⟩
  | fault _ | refused _ =>
    rw [present] at hpresent
    rw [presentAll, List.map_cons, hostDoAll, hpresent] at h
    cases h

/-- No command makes a faulted block unfaulted (R86). -/
theorem present_faulted {i : Instr} {s t : State} (h : present i s = .next t) (hf : s.faulted = true) : t.faulted = true := by
  rw [present, hostDo_eq_serve, serve] at h
  rcases runCommand_next h with ⟨-, rfl⟩ | ⟨c, info, -, rfl⟩ | ⟨j, u, v, -, -, hu, rfl⟩
  · exact hf
  · rfl
  · obtain ⟨-, -, -, hrec, -⟩ := ownEffect_frame hu
    exact hrec.trans hf

theorem presentAll_faulted {is : List Instr} {s t : State} (h : presentAll is s = .next t) (hf : s.faulted = true) :
    t.faulted = true := by
  induction is generalizing s with
  | nil => cases h; exact hf
  | cons i is ih =>
    obtain ⟨u, hu, hrest⟩ := presentAll_cons_next h
    exact ih hrest (present_faulted hu hf)

/-- In a run that ends unfaulted every command has its own effect (R85, R86). -/
theorem presentAll_cons_unfaulted {i : Instr} {is : List Instr} {s t : State} (h : presentAll (i :: is) s = .next t)
    (hs : s.faulted = false) (ht : t.faulted = false) :
    ∃ u v, OwnEffect s u v i ∧ presentAll is (u.respond v) = .next t := by
  obtain ⟨w, hw, hrest⟩ := presentAll_cons_next h
  have hwf : w.faulted = false := Bool.eq_false_iff.2 fun hwf => by simp [presentAll_faulted hrest hwf] at ht
  rw [present_eq_exec hs] at hw
  obtain ⟨u, v, hu, rfl⟩ := exec_unfaulted hw hwf
  exact ⟨u, v, hu, hrest⟩

theorem presentAll_rsReset {s : State} (hf : s.faulted = false) (is : List Instr) :
    presentAll (.rsReset :: is) s = presentAll is s.sessionStart :=
  presentAll_cons is ((present_eq_exec hf .rsReset).trans exec_rsReset)

/-! ### The phase a session holds -/

/-- The phase of the pairs in Q and of ACC, in steps of 1/R (R69): Q's pairs stand for R steps each. -/
def State.heldPhase (s : State) : Nat := s.q.length * s.srcRate.toNat + s.acc.toNat

/-- What RS_RESET begins and every command but a rate change keeps: an unfaulted READY block with ACC < R (R25, R68). -/
structure State.InSession (s : State) : Prop where
  unfaulted : s.faulted = false
  ready     : s.rsReady = true
  acc       : s.acc.toNat < s.srcRate.toNat

theorem State.InSession.srcRate_ne_zero {s : State} (h : s.InSession) : s.srcRate ≠ 0#24 := by
  intro hzero
  exact Nat.not_lt_zero _ (hzero ▸ h.acc)

theorem inSession_sessionStart {s : State} (hf : s.faulted = false) (hr : s.srcRate ≠ 0#24) : s.sessionStart.InSession :=
  ⟨hf, rfl, rate_pos hr⟩

@[simp] theorem State.sessionStart_srcRate (s : State) : s.sessionStart.srcRate = s.srcRate := rfl

@[simp] theorem State.sessionStart_dstRate (s : State) : s.sessionStart.dstRate = s.dstRate := rfl

@[simp] theorem heldPhase_respond (s : State) (v : U32) : (s.respond v).heldPhase = s.heldPhase := rfl

@[simp] theorem heldPhase_sessionStart (s : State) : s.sessionStart.heldPhase = 0 := by
  simp [State.heldPhase, State.sessionStart]

/-- Between a session's FEEDs and POPs the resampler's registers keep their values (R68). -/
theorem ownEffect_resampler {s u : State} {v : U32} {i : Instr} (h : OwnEffect s u v i) (hi : keepsSession i = true)
    (hfeed : isFeed i = false) (hpop : isPop i = false) : SameResampler s u := by
  cases i with
  | rsReset | setSrcRate _ | setDstRate _ => cases hi
  | feed _ => cases hfeed
  | pop => cases hpop
  | convert => obtain ⟨-, -, rfl, -⟩ := h; exact ⟨rfl, rfl, rfl, rfl, rfl, rfl⟩
  | build | lutRead _ => obtain ⟨-, rfl, -⟩ := h; exact ⟨rfl, rfl, rfl, rfl, rfl, rfl⟩
  | getSrcRate | getDstRate | pending | readStatus | readFaultInfo =>
    obtain ⟨rfl, -⟩ := h; exact ⟨rfl, rfl, rfl, rfl, rfl, rfl⟩

/-- R69, R76: a FEED adds T to the held phase, and leaves ACC below R. -/
theorem ownEffect_feed_heldPhase {s u : State} {v : U32} {smp : S16} (h : OwnEffect s u v (.feed smp)) :
    u.heldPhase = s.heldPhase + s.dstRate.toNat ∧ u.acc.toNat < u.srcRate.toNat := by
  obtain ⟨-, hrate, -, rfl, -⟩ := h
  have hacc := feedEmission_acc_toNat smp hrate
  have hdiv := Nat.div_add_mod' (s.acc.toNat + s.dstRate.toNat) s.srcRate.toNat
  refine ⟨?_, hacc.trans_lt (Nat.mod_lt _ (rate_pos hrate))⟩
  simp only [State.heldPhase, hacc, List.length_append, feedEmission_length, pairCount, Nat.add_mul]
  omega

/-- A POP takes one pair's R steps from the held phase (R78). -/
theorem ownEffect_pop_heldPhase {s u : State} {v : U32} (h : OwnEffect s u v .pop) :
    s.srcRate.toNat + u.heldPhase = s.heldPhase := by
  obtain ⟨p, rest, hq, rfl, -⟩ := h
  simp only [State.heldPhase, hq, List.length_cons, Nat.succ_mul]
  omega

/-- What a session's command does to the held phase; the rates stay, and ACC stays below R (R25, R69). -/
theorem ownEffect_heldPhase {s u : State} {v : U32} {i : Instr} (h : OwnEffect s u v i) (hi : keepsSession i = true)
    (hacc : s.acc.toNat < s.srcRate.toNat) :
    u.srcRate = s.srcRate ∧ u.dstRate = s.dstRate ∧ u.acc.toNat < u.srcRate.toNat
      ∧ [i].countP isPop * s.srcRate.toNat + u.heldPhase = s.heldPhase + [i].countP isFeed * s.dstRate.toNat := by
  cases i with
  | rsReset | setSrcRate _ | setDstRate _ => cases hi
  | feed smp =>
    obtain ⟨hphase, hacc'⟩ := ownEffect_feed_heldPhase h
    obtain ⟨-, -, -, rfl, -⟩ := h
    exact ⟨rfl, rfl, hacc', by simp [isPop, isFeed, hphase]⟩
  | pop =>
    have hphase := ownEffect_pop_heldPhase h
    obtain ⟨p, rest, -, rfl, -⟩ := h
    exact ⟨rfl, rfl, hacc, by simpa [isPop, isFeed] using hphase⟩
  | build | convert | lutRead _ | getSrcRate | getDstRate | pending | readStatus | readFaultInfo =>
    obtain ⟨hsrc, hdst, -, hacc', -, hq⟩ := ownEffect_resampler h hi rfl rfl
    exact ⟨hsrc, hdst, by rwa [hacc', hsrc], by simp [State.heldPhase, hsrc, hacc', hq, isPop, isFeed]⟩

theorem State.InSession.of_ownEffect {s u : State} {v : U32} {i : Instr} (h : s.InSession) (hu : OwnEffect s u v i)
    (hi : keepsSession i = true) : (u.respond v).InSession := by
  obtain ⟨-, -, -, hrec, -⟩ := ownEffect_frame hu
  obtain ⟨-, -, hacc, -⟩ := ownEffect_heldPhase hu hi h.acc
  exact ⟨hrec.trans h.unfaulted, (ownEffect_rsReady hu hi).trans h.ready, hacc⟩

/-- R80: over a run of a session that ends unfaulted, what the POPs took and the phase held are what was held and T a FEED. -/
theorem State.InSession.presentAll_heldPhase {is : List Instr} {s t : State} (h : s.InSession)
    (hi : is.all keepsSession = true) (hrun : presentAll is s = .next t) (ht : t.faulted = false) :
    t.srcRate = s.srcRate ∧ t.acc.toNat < t.srcRate.toNat
      ∧ is.countP isPop * s.srcRate.toNat + t.heldPhase = s.heldPhase + is.countP isFeed * s.dstRate.toNat := by
  induction is generalizing s with
  | nil =>
    cases hrun
    exact ⟨rfl, h.acc, by simp⟩
  | cons i is ih =>
    obtain ⟨hi, his⟩ : keepsSession i = true ∧ is.all keepsSession = true := by simpa using hi
    obtain ⟨u, v, hu, hrest⟩ := presentAll_cons_unfaulted hrun h.unfaulted ht
    obtain ⟨hsrc, hdst, -, hfirst⟩ := ownEffect_heldPhase hu hi h.acc
    obtain ⟨hsrc', hacc, hphase⟩ := ih (h.of_ownEffect hu hi) his hrest
    simp only [State.respond_srcRate, State.respond_dstRate, heldPhase_respond, hsrc, hdst] at hsrc' hphase
    refine ⟨hsrc', hacc, ?_⟩
    rw [← List.singleton_append, List.countP_append, List.countP_append, Nat.add_mul, Nat.add_mul]
    omega

/-- R80: from RS_RESET on, the held phase is N*T, so the pairs are its quotient by R and ACC is its remainder. -/
theorem session_counts {is : List Instr} {s t : State} (hf : s.faulted = false) (hr : s.srcRate ≠ 0#24)
    (hi : is.all keepsSession = true) (hrun : presentAll is s.sessionStart = .next t) (ht : t.faulted = false) :
    is.countP isPop + t.q.length = is.countP isFeed * s.dstRate.toNat / s.srcRate.toNat
      ∧ t.acc.toNat = is.countP isFeed * s.dstRate.toNat
          - s.srcRate.toNat * (is.countP isFeed * s.dstRate.toNat / s.srcRate.toNat) := by
  obtain ⟨hsrc, hacc, hphase⟩ := (inSession_sessionStart hf hr).presentAll_heldPhase hi hrun ht
  simp only [State.sessionStart_srcRate, State.sessionStart_dstRate, heldPhase_sessionStart, Nat.zero_add] at hsrc hphase
  rw [hsrc] at hacc
  have hsum : t.acc.toNat + s.srcRate.toNat * (is.countP isPop + t.q.length) = is.countP isFeed * s.dstRate.toNat := by
    rw [← hphase, State.heldPhase, hsrc]
    ring
  obtain ⟨hquot, hrem⟩ := (Nat.div_mod_unique (rate_pos hr)).2 ⟨hsum, hacc⟩
  exact ⟨hquot.symm, hrem.symm.trans Nat.mod_eq_sub_mul_div⟩

/-! ### Runs of FEEDs -/

/-- A FEED brings Q to the whole pairs of the phase held with it (R69, R76). -/
theorem heldPhase_add_div {s : State} (hr : s.srcRate ≠ 0#24) :
    s.q.length + pairCount s = (s.heldPhase + s.dstRate.toNat) / s.srcRate.toNat := by
  rw [State.heldPhase, Nat.add_assoc, Nat.mul_comm, Nat.mul_add_div (rate_pos hr), pairCount]

/-- FEEDs whose pairs fit Q all complete (R76, R80). -/
theorem State.InSession.presentAll_feeds {smps : List S16} {s : State} (h : s.InSession)
    (hroom : (s.heldPhase + smps.length * s.dstRate.toNat) / s.srcRate.toNat ≤ s.cfg.qcap) :
    ∃ t, presentAll (smps.map .feed) s = .next t ∧ t.faulted = false := by
  induction smps generalizing s with
  | nil => exact ⟨s, rfl, h.unfaulted⟩
  | cons smp smps ih =>
    rw [List.length_cons, Nat.succ_mul, Nat.add_comm (_ * _), ← Nat.add_assoc] at hroom
    have hfits : s.q.length + pairCount s ≤ s.cfg.qcap := by
      rw [heldPhase_add_div h.srcRate_ne_zero]
      exact (Nat.div_le_div_right (Nat.le_add_right _ _)).trans hroom
    have heffect : OwnEffect s _ _ (.feed smp) := ⟨h.ready, h.srcRate_ne_zero, hfits, rfl, rfl⟩
    have hfeed := (present_eq_exec h.unfaulted _).trans (exec_feed_room smp h.ready h.srcRate_ne_zero hfits)
    obtain ⟨hphase, -⟩ := ownEffect_feed_heldPhase heffect
    rw [← hphase] at hroom
    obtain ⟨t, hrun, ht⟩ := ih (h.of_ownEffect heffect rfl) hroom
    exact ⟨t, (presentAll_cons _ hfeed).trans hrun, ht⟩

/-- Settles O32: the held phase after RS_RESET counts the pairs, and FEEDs alone complete while their pairs fit. -/
theorem feedsConserveSamples : Obligations.FeedsConserveSamples := by
  refine ⟨fun s smps hf hr hroom => ?_, fun s t is hf hr hi hrun ht => ?_⟩
  · have hstart := inSession_sessionStart hf hr
    obtain ⟨t, hrun, ht⟩ := hstart.presentAll_feeds (smps := smps)
      (by rw [heldPhase_sessionStart, Nat.zero_add]; exact hroom)
    have hpops : (smps.map Instr.feed).countP isPop = 0 := by simp [isPop]
    have hfeeds : (smps.map Instr.feed).countP isFeed = smps.length := by simp [List.countP_map, Function.comp_def, isFeed]
    have hcounts := session_counts hf hr (by simp [keepsSession]) hrun ht
    rw [hpops, hfeeds, Nat.zero_add] at hcounts
    exact ⟨t, (presentAll_rsReset hf _).trans hrun, ht, hcounts⟩
  · rw [presentAll_rsReset hf] at hrun
    exact session_counts hf hr hi hrun ht

/-! ### Reproducibility -/

/-- The parts of the state that FEED reads: the configuration, FAULTED and the resampler, with every other part blanked. -/
def State.resampler (s : State) : State :=
  { s with
    ct := [], palBuilt := false, cause := .none, faultInfo := 0#32, out := [], inMem := [], pending := [], responses := []
    hostReads := [], draws := 0, epoch := 0 }

/-- What a FEED does to the resampler is seen in the resampler alone (R76). -/
theorem exec_feed_resampler {smp : S16} {s t : State} (h : exec (.feed smp) s = .next t) :
    ∃ u, exec (.feed smp) s.resampler = .next u ∧ u.resampler = t.resampler := by
  rcases exec_next h with ⟨w, v, ⟨hready, hrate, hroom, rfl, -⟩, rfl⟩
    | ⟨c, info, ⟨hready, rfl, -⟩ | ⟨hready, hrate, hfull, rfl, -⟩, rfl⟩
  · exact ⟨_, exec_feed_room (s := s.resampler) smp hready hrate hroom, rfl⟩
  · exact ⟨_, exec_feed_notReady (s := s.resampler) smp hready, rfl⟩
  · exact ⟨_, exec_feed_overflow (s := s.resampler) smp hready hrate hfull, rfl⟩

/-- A FEED presented to a faulted block is refused (R86). -/
theorem present_feed_faulted (smp : S16) {s : State} (hf : s.faulted = true) :
    present (.feed smp) s = .next s.refuseAfterFault := by
  rw [present, hostDo_eq_serve, serve, runCommand, hf, readsStatus_feed]
  rfl

theorem present_feed_resampler {smp : S16} {s t : State} (h : present (.feed smp) s = .next t) :
    ∃ u, present (.feed smp) s.resampler = .next u ∧ u.resampler = t.resampler := by
  cases hf : s.faulted with
  | false =>
    rw [present_eq_exec hf] at h
    rw [present_eq_exec (s := s.resampler) hf]
    exact exec_feed_resampler h
  | true =>
    obtain rfl := Host.Outcome.next.inj ((present_feed_faulted smp hf).symm.trans h)
    exact ⟨_, present_feed_faulted (s := s.resampler) smp hf, rfl⟩

/-- R80: states with equal resamplers have equal resamplers after the same FEEDs. -/
theorem presentAll_feeds_resampler {smps : List S16} {s₁ s₂ t₁ t₂ : State} (h : s₁.resampler = s₂.resampler)
    (h₁ : presentAll (smps.map .feed) s₁ = .next t₁) (h₂ : presentAll (smps.map .feed) s₂ = .next t₂) :
    t₁.resampler = t₂.resampler := by
  induction smps generalizing s₁ s₂ with
  | nil => cases h₁; cases h₂; exact h
  | cons smp smps ih =>
    obtain ⟨u₁, hu₁, hrest₁⟩ := presentAll_cons_next h₁
    obtain ⟨u₂, hu₂, hrest₂⟩ := presentAll_cons_next h₂
    obtain ⟨w₁, hw₁, heq₁⟩ := present_feed_resampler hu₁
    obtain ⟨w₂, hw₂, heq₂⟩ := present_feed_resampler hu₂
    have hw : w₁ = w₂ := Host.Outcome.next.inj (hw₁.symm.trans (h ▸ hw₂))
    exact ih (heq₁.symm.trans (hw ▸ heq₂)) hrest₁ hrest₂

/-- Settles O33: RS_RESET makes the two resamplers equal, and FEEDs keep them so. -/
theorem resetMakesFeedsReproducible : Obligations.ResetMakesFeedsReproducible := by
  intro s₁ s₂ t₁ t₂ smps hcfg hsrc hdst hf₁ hf₂ h₁ h₂
  rw [presentAll_rsReset hf₁] at h₁
  rw [presentAll_rsReset hf₂] at h₂
  have hstart : s₁.sessionStart.resampler = s₂.sessionStart.resampler := by
    simp [State.resampler, State.sessionStart, State.respond, State.answer, hcfg, hsrc, hdst, hf₁, hf₂]
  have hend := presentAll_feeds_resampler hstart h₁ h₂
  exact ⟨(congrArg State.q hend :), (congrArg State.acc hend :), (congrArg State.hist hend :)⟩

end Sys2Proof.Machine
end

section
/-! The status commands of spec/43_status.md R81 and R82: STATUS field by field (O39), and the fault record a READ_FAULT_INFO
answers, from the word that faults on (O40). -/

namespace Sys2Proof.Machine

/-! ### READ_STATUS -/

/-- Settles O39: the response is the STATUS word, whose fields the model's law reads off. -/
theorem readStatusAnswersTheFields : Obligations.ReadStatusAnswersTheFields :=
  ⟨rfl, fun s => ⟨_, _, exec_readStatus, onlyAnswered_respond s _, statusWord_fields s⟩⟩

/-! ### The record a new fault leaves -/

/-- R51: a word with a must-be-0 bit set has a row of the opcode map, whose mask finds the bit. -/
theorem exists_row_of_reservedBits {w : U32} (h : decode w = .error .reservedBits) :
    ∃ r ∈ rows, r.op = opField w ∧ w &&& reservedBits r.form ≠ 0#32 := by
  cases hrow : rowOf w with
  | none => simp [decode, hrow] at h
  | some r =>
    have hop : r.op = opField w := by simpa using List.find?_some hrow
    refine ⟨r, List.mem_of_find?_eq_some hrow, hop, fun hm => ?_⟩
    rw [decode_of_row hrow hm] at h
    cases h

/-- R84: a fault that a command takes meets its cause's row for the command's word. -/
theorem faultRow_of_takenFault {s : State} {c : Cause} {info : U32} {i : Instr} (h : TakenFault s c info i) :
    FaultRow s (encode i) info c := by
  cases i with
  | build => obtain ⟨hbuilt, rfl, rfl⟩ := h; exact ⟨hbuilt, rfl, rfl⟩
  | convert =>
    rcases h with ⟨hunbuilt, rfl, rfl⟩ | ⟨-, a, hbad, rfl, rfl⟩
    · exact ⟨hunbuilt, .inl ⟨rfl, rfl⟩⟩
    · exact ⟨rfl, a, rfl, firstBad_some.1 hbad⟩
  | lutRead idx => obtain ⟨hunbuilt, rfl, rfl⟩ := h; exact ⟨hunbuilt, .inr ⟨idx, rfl, rfl⟩⟩
  | setSrcRate _ => obtain ⟨rfl, rfl, rfl⟩ := h; exact ⟨.inl rfl, rfl⟩
  | setDstRate _ => obtain ⟨rfl, rfl, rfl⟩ := h; exact ⟨.inr rfl, rfl⟩
  | feed smp =>
    rcases h with ⟨hunready, rfl, rfl⟩ | ⟨-, -, hfull, rfl, rfl⟩
    · exact ⟨hunready, ⟨smp, rfl⟩, rfl⟩
    · exact ⟨hfull, ⟨smp, rfl⟩, rfl⟩
  | pop => obtain ⟨hempty, rfl, rfl⟩ := h; exact ⟨hempty, rfl, rfl⟩
  | rsReset | getSrcRate | getDstRate | pending | readStatus | readFaultInfo => exact h.elim

/-- R84: a word that newly faults meets the row of the cause it records. -/
theorem runCommand_faultRow {w : U32} {s t : State} (h : runCommand w s = .next t) (hs : s.faulted = false)
    (ht : t.faulted = true) : FaultRow s w t.faultInfo t.cause := by
  rcases runCommand_cases w s with ⟨hf, -, -⟩ | ⟨-, ⟨hd, he⟩ | ⟨hd, he⟩ | ⟨i, hd, he⟩⟩
  · simp [hs] at hf
  · obtain rfl := Host.Outcome.next.inj (h.symm.trans he)
    exact ⟨(unassigned_iff _).2 ((decode_illegalOpcode_iff w).1 hd), rfl⟩
  · obtain rfl := Host.Outcome.next.inj (h.symm.trans he)
    exact ⟨exists_row_of_reservedBits hd, rfl⟩
  · obtain rfl := encode_of_decode hd
    rcases exec_next (he.symm.trans h) with ⟨u, v, hu, rfl⟩ | ⟨c, info, hc, rfl⟩
    · obtain ⟨-, -, -, hrec, -⟩ := ownEffect_frame hu
      exact absurd (hrec.symm.trans ht) (by simp [hs])
    · exact faultRow_of_takenFault hc

/-- No row of R84 looks at what the host is still to do. -/
theorem faultRow_setPending {s : State} {w info : U32} {c : Cause} {rest : List HostEvent} :
    FaultRow { s with pending := rest } w info c ↔ FaultRow s w info c := by
  cases c <;> rfl

/-! ### The record a faulted block keeps -/

/-- R86: a word presented to a faulted block records nothing: a status read answers, any other word is refused. -/
theorem runCommand_sameRecord {w : U32} {s t : State} (h : runCommand w s = .next t) (hf : s.faulted = true) :
    SameRecord s t := by
  cases hw : readsStatus w with
  | true =>
    obtain ⟨v, he⟩ := runCommand_readsStatus hw s
    obtain rfl := Host.Outcome.next.inj (h.symm.trans he)
    exact ⟨rfl, rfl, rfl⟩
  | false =>
    obtain rfl : s.refuseAfterFault = t := by simpa [runCommand, hf, hw] using h
    exact ⟨rfl, rfl, rfl⟩

/-- R22, R23, R86: only the power-on event changes the record of a faulted block. -/
theorem serve_sameRecord {ev : HostEvent} {s t : State} (h : serve ev s = .next t) (hf : s.faulted = true)
    (hev : ev ≠ .powerOn) : SameRecord s t := by
  cases ev with
  | command w => exact runCommand_sameRecord h hf
  | writeIn a v => obtain ⟨-, rfl⟩ := hostWriteIn_next h; exact ⟨rfl, rfl, rfl⟩
  | readIn a => obtain rfl := hostReadIn_next h; exact ⟨rfl, rfl, rfl⟩
  | readOut a => obtain rfl := hostReadOut_next h; exact ⟨rfl, rfl, rfl⟩
  | powerOn => exact absurd rfl hev

/-- Host actions that answer a next state answer one after the first of them. -/
theorem hostDoAll_cons_next {ev : HostEvent} {evs : List HostEvent} {s t : State} (h : hostDoAll (ev :: evs) s = .next t) :
    ∃ u, serve ev s = .next u ∧ hostDoAll evs u = .next t := by
  rw [hostDoAll, hostDo_eq_serve] at h
  cases hserve : serve ev s with
  | next u => rw [hserve] at h; exact ⟨u, rfl, h⟩
  | fault _ | refused _ => rw [hserve] at h; cases h

/-- R82, R86: the record of a faulted block outlasts any actions of the host but the power-on event. -/
theorem hostDoAll_sameRecord {evs : List HostEvent} {s t : State} (h : hostDoAll evs s = .next t) (hf : s.faulted = true)
    (hevs : .powerOn ∉ evs) : SameRecord s t := by
  induction evs generalizing s with
  | nil => cases h; exact ⟨rfl, rfl, rfl⟩
  | cons ev evs ih =>
    obtain ⟨hev, hrest⟩ := List.ne_and_not_mem_of_not_mem_cons hevs
    obtain ⟨u, hu, hevsu⟩ := hostDoAll_cons_next h
    obtain ⟨hfaulted, hcause, hinfo⟩ := serve_sameRecord hu hf hev.symm
    obtain ⟨hfaulted', hcause', hinfo'⟩ := ih hevsu (hfaulted.trans hf) hrest
    exact ⟨hfaulted'.trans hfaulted, hcause'.trans hcause, hinfo'.trans hinfo⟩

/-! ### READ_FAULT_INFO -/

/-- R82, R86: READ_FAULT_INFO is run whether the block is faulted or not. -/
theorem present_readFaultInfo (s : State) : present .readFaultInfo s = .next (s.respond s.faultInfo) := by
  rw [present, hostDo_eq_serve, serve]
  exact (runCommand_of_decode (decode_encode _) (.inr rfl)).trans exec_readFaultInfo

/-- Settles O40: the word that faults records its cause's row, and from then on the record is kept, so READ_FAULT_INFO answers
it. -/
theorem readFaultInfoAnswers : Obligations.ReadFaultInfoAnswers := by
  refine ⟨rfl, fun s => ⟨⟨_, exec_readFaultInfo, onlyAnswered_respond s _⟩, fun hinv => hinv.record.info⟩, ?_⟩
  intro s t w rest hs hp hstep ht
  refine ⟨fun _ => faultRow_setPending.1 (runCommand_faultRow (step_serve hp hstep) hs ht), fun evs u hevs hu => ?_⟩
  obtain ⟨-, -, hinfo⟩ := hostDoAll_sameRecord hu ht hevs
  exact ⟨_, present_readFaultInfo u, hinfo ▸ onlyAnswered_respond u _⟩

end Sys2Proof.Machine
end

section
/-! The fault procedure and the refusal after a fault, spec/60_exceptions.md R84 to R87: the causes' codes (O41), what a faulted
block refuses and keeps (O8), the order of the causes (O9), and what a newly faulting word changes (O10) and records (O11);
with nothing presented, the block's wait of spec/70_reset_and_hazards.md R95 (O51). -/

namespace Sys2Proof.Machine

/-! ### The cause codes and the idle block -/

/-- Settles O41: the table of R84, and the bound cause by cause. -/
theorem causeCodes : Obligations.CauseCodes := by
  refine ⟨rfl, rfl, rfl, rfl, rfl, rfl, rfl, rfl, rfl, rfl, fun c => ?_⟩
  cases c <;> decide

/-- Settles O51: of the two things a step can be, waiting is the one with nothing presented. -/
theorem idleBlockHoldsState : Obligations.IdleBlockHoldsState := by
  intro s hidle
  rcases step_cases s with ⟨-, hwait⟩ | ⟨ev, rest, hp, -⟩
  · exact hwait
  · exact absurd (hidle.symm.trans hp) (by simp)

/-! ### The refusal after a fault -/

/-- R86: a faulted block refuses a word that is no status read. -/
theorem runCommand_refused {s : State} {w : U32} (hf : s.faulted = true) (hw : readsStatus w = false) :
    runCommand w s = .next s.refuseAfterFault := by
  simp [runCommand, hf, hw]

/-- Settles O8: the refusal only answers, no action but the power-on event touches the record, and that event clears it. -/
theorem faultedBlockRefuses : Obligations.FaultedBlockRefuses := by
  refine ⟨fun s w rest hf hp hstatus hinfo => ?_, fun s t ev rest hf hp hev hstep => ?_, fun s rest hp => ?_⟩
  · have hw : readsStatus w = false := Bool.eq_false_iff.2 fun h => ((readsStatus_iff w).1 h).elim hstatus hinfo
    exact (step_command hp).trans (runCommand_refused hf hw)
  · have hserve := step_serve hp hstep
    exact (serve_sameRecord hserve hf hev : SameRecord { s with pending := rest } t)
  · obtain ⟨t, hstep, -, -, -, hfaulted, hcause, hinfo, -⟩ := powerOnEvent s rest hp
    exact ⟨t, hstep, hfaulted, hcause, hinfo⟩

/-! ### The order of the causes -/

/-- R64: a frame with a bad cell has a first one. -/
theorem exists_firstBad {s : State} {x y : Nat} (hx : x < s.cfg.width) (hy : y < s.cfg.height)
    (hbad : badCell (inRead s (inAddr s.cfg x y)) = true) : ∃ a, firstBad s = some a := by
  refine Option.ne_none_iff_exists'.1 fun hnone => ?_
  have hgood := (firstBad_none s).1 hnone x y hx hy
  exact absurd (hbad.symm.trans hgood) (by decide)

/-- Settles O9: a refusal records nothing and a decode fault is raised before any command runs; past these the step is the
command's own rule, whose equation under the level's condition names the cause. -/
theorem faultPriority : Obligations.FaultPriority := by
  refine ⟨by decide, fun s w rest hp => ?_⟩
  have hrun : ∀ {i}, s.faulted = false → decode w = .ok i → step s = exec i { s with pending := rest } := fun hf hd =>
    stepRunsTheDecodedCommand s w rest _ hp hd (.inl hf)
  refine ⟨fun hf hw => ?refused, fun hf hd => ?illegalOpcode, fun hf hd => ?reservedBits, fun hf hnew hd => ?paletteNotBuilt,
    fun hf hbuilt hd => ?paletteRebuild, fun hf hready hd => ?rsNotReady, fun hf hq hd => ?queueEmpty,
    fun hf hd => ?rateZero, fun hf hready hrate hfull hd => ?queueOverflow, fun hf hbuilt hcell hd => ?indexRange⟩
  case refused => exact ⟨_, (step_command hp).trans (runCommand_refused hf hw), rfl, rfl⟩
  case illegalOpcode => exact ⟨_, (step_command hp).trans (runCommand_illegalOpcode hf hd), rfl⟩
  case reservedBits => exact ⟨_, (step_command hp).trans (runCommand_reservedBits hf hd), rfl⟩
  case paletteNotBuilt =>
    rcases hd with hd | ⟨idx, hd⟩
    · exact ⟨_, (hrun hf hd).trans (exec_convert_unbuilt hnew), rfl⟩
    · exact ⟨_, (hrun hf hd).trans (exec_lutRead_unbuilt idx hnew), rfl⟩
  case paletteRebuild => exact ⟨_, (hrun hf hd).trans (exec_build_again hbuilt), rfl⟩
  case rsNotReady =>
    obtain ⟨smp, hd⟩ := hd
    exact ⟨_, (hrun hf hd).trans (exec_feed_notReady smp hready), rfl⟩
  case queueEmpty => exact ⟨_, (hrun hf hd).trans (exec_pop_empty hq), rfl⟩
  case rateZero =>
    rcases hd with hd | hd
    · exact ⟨_, (hrun hf hd).trans exec_setSrcRate_zero, rfl⟩
    · exact ⟨_, (hrun hf hd).trans exec_setDstRate_zero, rfl⟩
  case queueOverflow =>
    obtain ⟨smp, hd⟩ := hd
    exact ⟨_, (hrun hf hd).trans (exec_feed_overflow smp hready hrate hfull), rfl⟩
  case indexRange =>
    obtain ⟨x, y, hx, hy, hbad⟩ := hcell
    obtain ⟨a, ha⟩ := exists_firstBad (s := { s with pending := rest }) hx hy hbad
    exact ⟨_, (hrun hf hd).trans (exec_convert_bad hbuilt ha), rfl⟩

/-! ### What a new fault changes and records -/

/-- R85: a word that newly faults has run the fault procedure with a cause other than NONE, and nothing else. -/
theorem runCommand_newFault {w : U32} {s t : State} (h : runCommand w s = .next t) (hs : s.faulted = false)
    (ht : t.faulted = true) : ∃ c info, c ≠ .none ∧ t = (faultBase s c).raiseFault c info := by
  rcases runCommand_next h with ⟨hf, -⟩ | hfault | ⟨i, u, v, -, -, hu, rfl⟩
  · simp [hs] at hf
  · exact hfault
  · obtain ⟨-, -, -, hrec, -⟩ := ownEffect_frame hu
    exact absurd (hrec.symm.trans ht) (by simp [hs])

/-- R85: the fault procedure traps with its cause and information, also after INDEX_RANGE. -/
theorem trapped_faultBase (s : State) (c : Cause) (info : U32) : Trapped s ((faultBase s c).raiseFault c info) c info := by
  unfold faultBase
  split
  · exact trapped_scrambleLogical s c info
  · exact (trapped_raiseFault s c info).1

/-- R85: a fault other than INDEX_RANGE starts from the state before the command. -/
theorem faultBase_of_ne (s : State) {c : Cause} (hc : c ≠ .indexRange) : faultBase s c = s := if_neg hc

/-- R66: whatever the cause, a fault leaves the cells of OUT that are no logical pixel as they were. -/
theorem outRead_faultBase_other {s : State} {a : Nat} (ha : ¬ IsLogical s.cfg a) (c : Cause) :
    outRead (faultBase s c) a = outRead s a := by
  unfold faultBase
  split
  · exact outRead_scrambleLogical_other ha
  · rfl

/-- Settles O10: the word has run the fault procedure alone, whose frame is known for every cause. -/
theorem faultsArePrecise : Obligations.FaultsArePrecise := by
  intro s t w rest hs hp hstep ht
  obtain ⟨c, info, hc, rfl⟩ := runCommand_newFault (step_serve hp hstep) hs ht
  refine ⟨trapped_faultBase _ c info, hc, fun hcause => ?_, fun a ha => ?_⟩
  · rw [faultBase_of_ne (c := c) _ hcause]
    exact fun _ => rfl
  · exact outRead_faultBase_other (s := { s with pending := rest }) ha c

/-- Settles O11: the word's dispatch meets its cause's row, which does not look at what the host is still to do. -/
theorem recordedCauseMeetsItsRow : Obligations.RecordedCauseMeetsItsRow := by
  intro s t w rest hs hp hstep ht
  exact faultRow_setPending.1 (runCommand_faultRow (step_serve hp hstep) hs ht)

end Sys2Proof.Machine
end

section
/-! The boot sequence of spec/70_reset_and_hazards.md R97: BUILD, the two rate commands where rates are asked for, and RS_RESET
(O53). -/

namespace Sys2Proof.Machine

/-- The first command of a run on an unfaulted block runs, and the run goes on from the state it leaves (R51, R101). -/
theorem presentAll_cons_exec {i : Instr} {s t : State} (is : List Instr) (hf : s.faulted = false) (h : exec i s = .next t) :
    presentAll (i :: is) s = presentAll is t :=
  presentAll_cons is ((present_eq_exec hf i).trans h)

/-- R98: a session reset of an unfaulted block completes. -/
theorem presentAll_sessionReset {s : State} (hf : s.faulted = false) : presentAll sessionReset s = .next s.sessionStart :=
  presentAll_rsReset hf []

/-- The state after SET_SRC_RATE and SET_DST_RATE with legal rates (R72, R73). -/
def State.withRates (s : State) (src dst : U24) : State :=
  ({ s with srcRate := src, dstRate := dst, rsReady := false }.respond 0#32).respond 0#32

theorem presentAll_setRates {s : State} {src dst : U24} (is : List Instr) (hf : s.faulted = false) (hsrc : src ≠ 0#24)
    (hdst : dst ≠ 0#24) :
    presentAll (.setSrcRate src :: .setDstRate dst :: is) s = presentAll is (s.withRates src dst) :=
  (presentAll_cons_exec _ hf (exec_setSrcRate hsrc)).trans (presentAll_cons_exec is hf (exec_setDstRate hdst))

/-- The state after the first BUILD (R59). -/
def State.tableBuilt (s : State) : State :=
  { s with ct := s.ct.writeAll (tableWrites s.cfg), palBuilt := true }.respond 0#32

theorem presentAll_build {s : State} (is : List Instr) (hf : s.faulted = false) (hnew : s.palBuilt = false) :
    presentAll (.build :: is) s = presentAll is s.tableBuilt :=
  presentAll_cons_exec is hf (exec_build_new hnew)

theorem ctRead_tableBuilt (s : State) (i : U9) : ctRead s.tableBuilt i.toNat = entry s.cfg i :=
  ctRead_of_tableWrites rfl i

/-- Settles O53: BUILD completes on the unbuilt table, legal rates complete and keep it, and RS_RESET readies the resampler. -/
theorem bootSequenceReadies : Obligations.BootSequenceReadies := by
  intro s rates hf hnew hlegal
  have hbuilt : s.tableBuilt.faulted = false := hf
  cases rates with
  | none =>
    have hrun : presentAll (bootSequence none) s = .next s.tableBuilt.sessionStart :=
      (presentAll_build sessionReset hf hnew).trans (presentAll_sessionReset hbuilt)
    exact ⟨_, hrun, hf, rfl, rfl, rfl, rfl, rfl, rfl, ctRead_tableBuilt s⟩
  | some p =>
    obtain ⟨hsrc, hdst⟩ := hlegal p rfl
    have hrated : (s.tableBuilt.withRates p.1 p.2).faulted = false := hf
    have hrun : presentAll (bootSequence (some p)) s = .next (s.tableBuilt.withRates p.1 p.2).sessionStart :=
      calc presentAll (bootSequence (some p)) s
        _ = presentAll (.setSrcRate p.1 :: .setDstRate p.2 :: sessionReset) s.tableBuilt := presentAll_build _ hf hnew
        _ = presentAll sessionReset (s.tableBuilt.withRates p.1 p.2) := presentAll_setRates _ hbuilt hsrc hdst
        _ = .next (s.tableBuilt.withRates p.1 p.2).sessionStart := presentAll_sessionReset hrated
    exact ⟨_, hrun, hf, rfl, rfl, rfl, rfl, rfl, rfl, ctRead_tableBuilt s⟩

end Sys2Proof.Machine
end
